-- ==== Sys2Proof/Word.lean ====
section
/-! DEFINITION. The machine's word: a sign and a 30-bit magnitude (five 6-bit bytes), its value, and
the 13-bit index-register word (spec 00_scope.md R11–R14, 10_state.md R41–R44). -/

namespace Sys2Proof

/-- A sign; a word keeps it even when its magnitude is 0, so −0 and +0 are different words (R12). -/
inductive Sign where
  | plus
  | minus
  deriving DecidableEq, Repr, Inhabited

/-- `opposite(s)` of R11. -/
def Sign.opposite : Sign → Sign
  | .plus => .minus
  | .minus => .plus

/-- The integer of sign `s` and magnitude `n`. -/
def Sign.apply (s : Sign) (n : Nat) : Int :=
  match s with
  | .plus => (n : Int)
  | .minus => -(n : Int)

/-- `sgn(v, s0)` of R13: the sign of `v`, and `s0` where `v` is 0. -/
def sgn (v : Int) (s0 : Sign) : Sign :=
  if 0 < v then .plus else if v < 0 then .minus else s0

/-- One byte, 0..63 (R7). -/
abbrev Byte := BitVec 6

/-- A word: sign and magnitude, 31 bits in all (R11).  Byte 1 is the most significant byte of the
magnitude, byte 5 the least (R10). -/
structure Word where
  sign : Sign
  mag  : BitVec 30
  deriving DecidableEq, Repr, Inhabited

/-- `word(+, 0)`. -/
def Word.zero : Word := ⟨.plus, 0⟩

/-- `val(w)` (R11): −0 and +0 both have value 0. -/
def Word.val (w : Word) : Int := w.sign.apply w.mag.toNat

/-- The word with the sign inverted and the same magnitude. -/
def Word.negate (w : Word) : Word := ⟨w.sign.opposite, w.mag⟩

/-- What an index register holds: a sign and two bytes (R43). -/
structure IndexWord where
  sign : Sign
  mag  : BitVec 12
  deriving DecidableEq, Repr, Inhabited

/-- `val(rIi)`. -/
def IndexWord.val (r : IndexWord) : Int := r.sign.apply r.mag.toNat

/-- An index register read as a word: bytes 1–3 are 0 (R14, R43). -/
def IndexWord.word (r : IndexWord) : Word := ⟨r.sign, r.mag.setWidth 30⟩

/-- rJ read as a word: sign plus, bytes 1–3 are 0 (R14, R44). -/
def jumpWord (j : BitVec 12) : Word := ⟨.plus, j.setWidth 30⟩

end Sys2Proof
end

