-- ==== Sys2Proof/Config.lean ====
section
/-! DEFINITION. What a build or a host fixes before a run (spec 00_scope.md R7), and the free values
of the model: the draws of an overflowing DIV and the device oracle's answers. -/

namespace Sys2Proof

/-- What a FieldError does (60_exceptions.md R502). -/
inductive FieldErrorPolicy where
  | skip
  | stop
  deriving DecidableEq, Repr

/-- What a write of an index register needing a magnitude ≥ 4096 does (10_state.md R57). -/
inductive IndexAnomalyPolicy where
  | record
  | stop
  deriving DecidableEq, Repr

/-- Whether a jump that is not taken writes rJ (45_jump.md R321). -/
inductive JWritePolicy where
  | always
  | whenTaken
  deriving DecidableEq, Repr

/-- The sign an ENNr enters (47_address_transfer.md R423). -/
inductive EnnPolicy where
  | forceNegative
  | negate
  deriving DecidableEq, Repr

/-- `IO_BLOCK(unit, M)` as plain data (48_misc.md R480; log entry 11): every address; `n` words from M
on for each listed unit (Knuth's block sizes have this form); or a table from unit and M to the
addresses.  A unit, or a pair, that is not listed has the empty block. -/
inductive IoBlock where
  | allMemory
  | span (sizes : List (BitVec 6 × Nat))
  | table (rows : List ((BitVec 6 × Int) × List Int))
  deriving DecidableEq, Repr

/-- The parameters of R7.  They are no state of the block: nothing in a run changes them (10_state.md
R60; log entry 1). -/
structure Params where
  memSize           : Nat
  maxOpcode         : BitVec 6
  gkOpsAdmitted     : Bool
  fieldError        : FieldErrorPolicy
  indexAnomaly      : IndexAnomalyPolicy
  jWrite            : JWritePolicy
  enn               : EnnPolicy
  shiftSetsOverflow : Bool
  ioUnits           : List (BitVec 6)
  ioBlock           : IoBlock
  deriving DecidableEq, Repr

/-- The default of every parameter (R7). -/
def Params.default : Params where
  memSize           := 4000
  maxOpcode         := 63
  gkOpsAdmitted     := true
  fieldError        := .skip
  indexAnomaly      := .record
  jWrite            := .always
  enn               := .forceNegative
  shiftSetsOverflow := false
  ioUnits           := [0, 1, 2, 3, 4, 5, 6, 7, 8, 9, 10, 11, 12, 13, 14, 15, 16, 17, 18, 19, 20]
  ioBlock           := .allMemory

/-- The parameter values a launch accepts (70_reset_and_hazards.md R552): the types admit only legal
values of the others. -/
def Params.legal (p : Params) : Bool := decide (4000 ≤ p.memSize) && decide (p.memSize ≤ 4096)

/-- The operation a device is asked for (48_misc.md R480). -/
inductive DeviceOp where
  | jbus
  | ioc
  | inp
  | out
  | jred
  deriving DecidableEq, Repr

/-- `Device(op, unit, val(M), memory)` of R480. -/
structure DeviceCall where
  op   : DeviceOp
  unit : BitVec 6
  m    : Int
  mem  : List (Nat × Word)
  deriving DecidableEq, Repr

/-- The device oracle's answer (R480; log entry 6): `fail`, or an answer of which JBUS and JRED read
`busy` (not busy is "free" to JBUS and "ready" to JRED), IN reads `cells`, the words of its memory
image that differ from memory, and IOC and OUT read nothing ("done"). -/
inductive DeviceAnswer where
  | fail
  | answer (busy : Bool) (cells : List (Nat × Word))
  deriving DecidableEq, Repr, Inhabited

/-- `draw()` number `n` (00_scope.md R16, 42_arithmetic.md R253): a FREE VALUE, under no law (log
entry 7). -/
opaque Config.draw (n : Nat) : Word

/-- What the host's device oracle answers to its call number `n` where the state holds no answer for
it: a FREE VALUE, under no law (R480; log entry 5). -/
opaque Config.device (n : Nat) (call : DeviceCall) : DeviceAnswer

end Sys2Proof
end

