-- ==== Sys2Proof/Syntax.lean ====
section
/-! DEFINITION. The instructions, one constructor per row of spec/opcode_table.json, with the operands the
decoder pulls out of the 31-bit cell (spec 30_encoding.md R130, R150). -/

namespace Sys2Proof

/-- An index register rI1..rI6. -/
inductive IndexReg where
  | r1
  | r2
  | r3
  | r4
  | r5
  | r6
  deriving DecidableEq, Repr

/-- The address part of an instruction: the sign As and magnitude Am of A, and the index I (`none`
where I = 0) (R130, R133, R134).  A = −0 and A = +0 are different operands. -/
structure Address where
  sign  : Sign
  mag   : BitVec 12
  index : Option IndexReg
  deriving DecidableEq, Repr

/-- A field specification (L:R), encoded as F = 8L + R (R135). -/
structure Field where
  l : BitVec 3
  r : BitVec 3
  deriving DecidableEq, Repr

/-- The instructions of R150.  Every one carries its whole address part, also where its rule does not
use M; a field-spec opcode carries its field, MOVE its word count, an I/O opcode its unit. -/
inductive Instr where
  | nop (a : Address) (f : Field)
  | add (a : Address) (f : Field)
  | sub (a : Address) (f : Field)
  | mul (a : Address) (f : Field)
  | div (a : Address) (f : Field)
  | num (a : Address)
  | char (a : Address)
  | hlt (a : Address)
  | sla (a : Address)
  | sra (a : Address)
  | slax (a : Address)
  | srax (a : Address)
  | slc (a : Address)
  | src (a : Address)
  | move (a : Address) (n : BitVec 6)
  | lda (a : Address) (f : Field)
  | ld1 (a : Address) (f : Field)
  | ld2 (a : Address) (f : Field)
  | ld3 (a : Address) (f : Field)
  | ld4 (a : Address) (f : Field)
  | ld5 (a : Address) (f : Field)
  | ld6 (a : Address) (f : Field)
  | ldx (a : Address) (f : Field)
  | ldan (a : Address) (f : Field)
  | ld1n (a : Address) (f : Field)
  | ld2n (a : Address) (f : Field)
  | ld3n (a : Address) (f : Field)
  | ld4n (a : Address) (f : Field)
  | ld5n (a : Address) (f : Field)
  | ld6n (a : Address) (f : Field)
  | ldxn (a : Address) (f : Field)
  | sta (a : Address) (f : Field)
  | st1 (a : Address) (f : Field)
  | st2 (a : Address) (f : Field)
  | st3 (a : Address) (f : Field)
  | st4 (a : Address) (f : Field)
  | st5 (a : Address) (f : Field)
  | st6 (a : Address) (f : Field)
  | stx (a : Address) (f : Field)
  | stj (a : Address) (f : Field)
  | stz (a : Address) (f : Field)
  | jbus (a : Address) (u : BitVec 6)
  | ioc (a : Address) (u : BitVec 6)
  | inp (a : Address) (u : BitVec 6)
  | out (a : Address) (u : BitVec 6)
  | jred (a : Address) (u : BitVec 6)
  | jmp (a : Address)
  | jsj (a : Address)
  | jov (a : Address)
  | jnov (a : Address)
  | jl (a : Address)
  | je (a : Address)
  | jg (a : Address)
  | jge (a : Address)
  | jne (a : Address)
  | jle (a : Address)
  | jan (a : Address)
  | jaz (a : Address)
  | jap (a : Address)
  | jann (a : Address)
  | janz (a : Address)
  | janp (a : Address)
  | j1n (a : Address)
  | j1z (a : Address)
  | j1p (a : Address)
  | j1nn (a : Address)
  | j1nz (a : Address)
  | j1np (a : Address)
  | j2n (a : Address)
  | j2z (a : Address)
  | j2p (a : Address)
  | j2nn (a : Address)
  | j2nz (a : Address)
  | j2np (a : Address)
  | j3n (a : Address)
  | j3z (a : Address)
  | j3p (a : Address)
  | j3nn (a : Address)
  | j3nz (a : Address)
  | j3np (a : Address)
  | j4n (a : Address)
  | j4z (a : Address)
  | j4p (a : Address)
  | j4nn (a : Address)
  | j4nz (a : Address)
  | j4np (a : Address)
  | j5n (a : Address)
  | j5z (a : Address)
  | j5p (a : Address)
  | j5nn (a : Address)
  | j5nz (a : Address)
  | j5np (a : Address)
  | j6n (a : Address)
  | j6z (a : Address)
  | j6p (a : Address)
  | j6nn (a : Address)
  | j6nz (a : Address)
  | j6np (a : Address)
  | jxn (a : Address)
  | jxz (a : Address)
  | jxp (a : Address)
  | jxnn (a : Address)
  | jxnz (a : Address)
  | jxnp (a : Address)
  | inca (a : Address)
  | deca (a : Address)
  | enta (a : Address)
  | enna (a : Address)
  | inc1 (a : Address)
  | dec1 (a : Address)
  | ent1 (a : Address)
  | enn1 (a : Address)
  | inc2 (a : Address)
  | dec2 (a : Address)
  | ent2 (a : Address)
  | enn2 (a : Address)
  | inc3 (a : Address)
  | dec3 (a : Address)
  | ent3 (a : Address)
  | enn3 (a : Address)
  | inc4 (a : Address)
  | dec4 (a : Address)
  | ent4 (a : Address)
  | enn4 (a : Address)
  | inc5 (a : Address)
  | dec5 (a : Address)
  | ent5 (a : Address)
  | enn5 (a : Address)
  | inc6 (a : Address)
  | dec6 (a : Address)
  | ent6 (a : Address)
  | enn6 (a : Address)
  | incx (a : Address)
  | decx (a : Address)
  | entx (a : Address)
  | ennx (a : Address)
  | cmpa (a : Address) (f : Field)
  | cmp1 (a : Address) (f : Field)
  | cmp2 (a : Address) (f : Field)
  | cmp3 (a : Address) (f : Field)
  | cmp4 (a : Address) (f : Field)
  | cmp5 (a : Address) (f : Field)
  | cmp6 (a : Address) (f : Field)
  | cmpx (a : Address) (f : Field)
  deriving DecidableEq, Repr

end Sys2Proof
end

