-- ==== Sys2Proof/WellFormed.lean ====
section
/-! DEFINITION. Which instruction terms an instruction word can carry (spec 30_encoding.md R145). -/

namespace Sys2Proof

/-- `valid(L, R)`: 0 ≤ L ≤ R ≤ 5 (20_memory.md R102, 10_state.md R63). -/
def Field.valid (f : Field) : Bool := decide (f.r.toNat ≤ 5) && decide (f.l.toNat ≤ f.r.toNat)

/-- An instruction is well formed when its F is legal for its opcode's F role: a field spec is one of the
21 valid fields, a unit is in IO_UNITS; a word count may be anything, and a selector is fixed by
the constructor (R145). -/
def Instr.wf (p : Params) : Instr → Bool
  | .nop _ f => f.valid
  | .add _ f => f.valid
  | .sub _ f => f.valid
  | .mul _ f => f.valid
  | .div _ f => f.valid
  | .num _ => true
  | .char _ => true
  | .hlt _ => true
  | .sla _ => true
  | .sra _ => true
  | .slax _ => true
  | .srax _ => true
  | .slc _ => true
  | .src _ => true
  | .move _ _ => true
  | .lda _ f => f.valid
  | .ld1 _ f => f.valid
  | .ld2 _ f => f.valid
  | .ld3 _ f => f.valid
  | .ld4 _ f => f.valid
  | .ld5 _ f => f.valid
  | .ld6 _ f => f.valid
  | .ldx _ f => f.valid
  | .ldan _ f => f.valid
  | .ld1n _ f => f.valid
  | .ld2n _ f => f.valid
  | .ld3n _ f => f.valid
  | .ld4n _ f => f.valid
  | .ld5n _ f => f.valid
  | .ld6n _ f => f.valid
  | .ldxn _ f => f.valid
  | .sta _ f => f.valid
  | .st1 _ f => f.valid
  | .st2 _ f => f.valid
  | .st3 _ f => f.valid
  | .st4 _ f => f.valid
  | .st5 _ f => f.valid
  | .st6 _ f => f.valid
  | .stx _ f => f.valid
  | .stj _ f => f.valid
  | .stz _ f => f.valid
  | .jbus _ u => p.ioUnits.contains u
  | .ioc _ u => p.ioUnits.contains u
  | .inp _ u => p.ioUnits.contains u
  | .out _ u => p.ioUnits.contains u
  | .jred _ u => p.ioUnits.contains u
  | .jmp _ => true
  | .jsj _ => true
  | .jov _ => true
  | .jnov _ => true
  | .jl _ => true
  | .je _ => true
  | .jg _ => true
  | .jge _ => true
  | .jne _ => true
  | .jle _ => true
  | .jan _ => true
  | .jaz _ => true
  | .jap _ => true
  | .jann _ => true
  | .janz _ => true
  | .janp _ => true
  | .j1n _ => true
  | .j1z _ => true
  | .j1p _ => true
  | .j1nn _ => true
  | .j1nz _ => true
  | .j1np _ => true
  | .j2n _ => true
  | .j2z _ => true
  | .j2p _ => true
  | .j2nn _ => true
  | .j2nz _ => true
  | .j2np _ => true
  | .j3n _ => true
  | .j3z _ => true
  | .j3p _ => true
  | .j3nn _ => true
  | .j3nz _ => true
  | .j3np _ => true
  | .j4n _ => true
  | .j4z _ => true
  | .j4p _ => true
  | .j4nn _ => true
  | .j4nz _ => true
  | .j4np _ => true
  | .j5n _ => true
  | .j5z _ => true
  | .j5p _ => true
  | .j5nn _ => true
  | .j5nz _ => true
  | .j5np _ => true
  | .j6n _ => true
  | .j6z _ => true
  | .j6p _ => true
  | .j6nn _ => true
  | .j6nz _ => true
  | .j6np _ => true
  | .jxn _ => true
  | .jxz _ => true
  | .jxp _ => true
  | .jxnn _ => true
  | .jxnz _ => true
  | .jxnp _ => true
  | .inca _ => true
  | .deca _ => true
  | .enta _ => true
  | .enna _ => true
  | .inc1 _ => true
  | .dec1 _ => true
  | .ent1 _ => true
  | .enn1 _ => true
  | .inc2 _ => true
  | .dec2 _ => true
  | .ent2 _ => true
  | .enn2 _ => true
  | .inc3 _ => true
  | .dec3 _ => true
  | .ent3 _ => true
  | .enn3 _ => true
  | .inc4 _ => true
  | .dec4 _ => true
  | .ent4 _ => true
  | .enn4 _ => true
  | .inc5 _ => true
  | .dec5 _ => true
  | .ent5 _ => true
  | .enn5 _ => true
  | .inc6 _ => true
  | .dec6 _ => true
  | .ent6 _ => true
  | .enn6 _ => true
  | .incx _ => true
  | .decx _ => true
  | .entx _ => true
  | .ennx _ => true
  | .cmpa _ f => f.valid
  | .cmp1 _ f => f.valid
  | .cmp2 _ f => f.valid
  | .cmp3 _ f => f.valid
  | .cmp4 _ f => f.valid
  | .cmp5 _ f => f.valid
  | .cmp6 _ f => f.valid
  | .cmpx _ f => f.valid

end Sys2Proof
end

