-- ==== Sys2Proof/Decode.lean ====
section
/-! DEFINITION. The word codec, the instruction decoder and the encoder (spec 10_state.md R61, R62;
30_encoding.md R130–R160). -/

namespace Sys2Proof

/-- The sign bit: 1 for minus (00_scope.md R11). -/
def signBit : Sign → BitVec 1
  | .plus => 0
  | .minus => 1

/-- The sign of a sign bit. -/
def bitSign (b : BitVec 1) : Sign := if b = 1 then .minus else .plus

/-- `pack_word` (R61): the sign above the magnitude. -/
def packWord (w : Word) : BitVec 31 := signBit w.sign ++ w.mag

/-- `unpack_word` (R61). -/
def unpackWord (v : BitVec 31) : Word := ⟨bitSign (v.extractLsb' 30 1), v.extractLsb' 0 30⟩

/-- The fields of an instruction cell (R130). -/
structure Cell where
  c  : BitVec 6
  f  : BitVec 6
  i  : BitVec 6
  am : BitVec 12
  as : Sign
  deriving DecidableEq, Repr

/-- `pack_instr` (R61): As ‖ Am ‖ I ‖ F ‖ C. -/
def packInstr (x : Cell) : Word := ⟨x.as, x.am ++ x.i ++ x.f ++ x.c⟩

/-- `unpack_instr` (R61, R140). -/
def unpackInstr (w : Word) : Cell where
  c  := w.mag.extractLsb' 0 6
  f  := w.mag.extractLsb' 6 6
  i  := w.mag.extractLsb' 12 6
  am := w.mag.extractLsb' 18 12
  as := w.sign

/-- I = 0 is no index, 1..6 an index register, 7..63 illegal (R134, R141). -/
def decodeIndex (i : BitVec 6) : Option (Option IndexReg) :=
  match i.toNat with
  | 0 => some none
  | 1 => some (some .r1)
  | 2 => some (some .r2)
  | 3 => some (some .r3)
  | 4 => some (some .r4)
  | 5 => some (some .r5)
  | 6 => some (some .r6)
  | _ => none

/-- L = F div 8 and R = F mod 8 (R135). -/
def fieldOf (f : BitVec 6) : Field := ⟨f.extractLsb' 3 3, f.extractLsb' 0 3⟩

/-- The instruction of a field-spec opcode, where F is a valid field (R145). -/
def withField (f : BitVec 6) (mk : Field → Instr) : Option Instr :=
  if (fieldOf f).valid then some (mk (fieldOf f)) else none

/-- The instruction of an I/O opcode, where F is in IO_UNITS (R145). -/
def withUnit (p : Params) (u : BitVec 6) (mk : BitVec 6 → Instr) : Option Instr :=
  if p.ioUnits.contains u then some (mk u) else none

/-- The opcode map of R150, with the F check of R145: `none` is a FieldError. -/
def decodeOp (p : Params) (c f : BitVec 6) (a : Address) : Option Instr :=
  match c.toNat with
  | 0 => withField f (.nop a)
  | 1 => withField f (.add a)
  | 2 => withField f (.sub a)
  | 3 => withField f (.mul a)
  | 4 => withField f (.div a)
  | 5 =>
    match f.toNat with
    | 0 => some (.num a)
    | 1 => some (.char a)
    | 2 => some (.hlt a)
    | _ => none
  | 6 =>
    match f.toNat with
    | 0 => some (.sla a)
    | 1 => some (.sra a)
    | 2 => some (.slax a)
    | 3 => some (.srax a)
    | 4 => some (.slc a)
    | 5 => some (.src a)
    | _ => none
  | 7 => some (.move a f)
  | 8 => withField f (.lda a)
  | 9 => withField f (.ld1 a)
  | 10 => withField f (.ld2 a)
  | 11 => withField f (.ld3 a)
  | 12 => withField f (.ld4 a)
  | 13 => withField f (.ld5 a)
  | 14 => withField f (.ld6 a)
  | 15 => withField f (.ldx a)
  | 16 => withField f (.ldan a)
  | 17 => withField f (.ld1n a)
  | 18 => withField f (.ld2n a)
  | 19 => withField f (.ld3n a)
  | 20 => withField f (.ld4n a)
  | 21 => withField f (.ld5n a)
  | 22 => withField f (.ld6n a)
  | 23 => withField f (.ldxn a)
  | 24 => withField f (.sta a)
  | 25 => withField f (.st1 a)
  | 26 => withField f (.st2 a)
  | 27 => withField f (.st3 a)
  | 28 => withField f (.st4 a)
  | 29 => withField f (.st5 a)
  | 30 => withField f (.st6 a)
  | 31 => withField f (.stx a)
  | 32 => withField f (.stj a)
  | 33 => withField f (.stz a)
  | 34 => withUnit p f (.jbus a)
  | 35 => withUnit p f (.ioc a)
  | 36 => withUnit p f (.inp a)
  | 37 => withUnit p f (.out a)
  | 38 => withUnit p f (.jred a)
  | 39 =>
    match f.toNat with
    | 0 => some (.jmp a)
    | 1 => some (.jsj a)
    | 2 => some (.jov a)
    | 3 => some (.jnov a)
    | 4 => some (.jl a)
    | 5 => some (.je a)
    | 6 => some (.jg a)
    | 7 => some (.jge a)
    | 8 => some (.jne a)
    | 9 => some (.jle a)
    | _ => none
  | 40 =>
    match f.toNat with
    | 0 => some (.jan a)
    | 1 => some (.jaz a)
    | 2 => some (.jap a)
    | 3 => some (.jann a)
    | 4 => some (.janz a)
    | 5 => some (.janp a)
    | _ => none
  | 41 =>
    match f.toNat with
    | 0 => some (.j1n a)
    | 1 => some (.j1z a)
    | 2 => some (.j1p a)
    | 3 => some (.j1nn a)
    | 4 => some (.j1nz a)
    | 5 => some (.j1np a)
    | _ => none
  | 42 =>
    match f.toNat with
    | 0 => some (.j2n a)
    | 1 => some (.j2z a)
    | 2 => some (.j2p a)
    | 3 => some (.j2nn a)
    | 4 => some (.j2nz a)
    | 5 => some (.j2np a)
    | _ => none
  | 43 =>
    match f.toNat with
    | 0 => some (.j3n a)
    | 1 => some (.j3z a)
    | 2 => some (.j3p a)
    | 3 => some (.j3nn a)
    | 4 => some (.j3nz a)
    | 5 => some (.j3np a)
    | _ => none
  | 44 =>
    match f.toNat with
    | 0 => some (.j4n a)
    | 1 => some (.j4z a)
    | 2 => some (.j4p a)
    | 3 => some (.j4nn a)
    | 4 => some (.j4nz a)
    | 5 => some (.j4np a)
    | _ => none
  | 45 =>
    match f.toNat with
    | 0 => some (.j5n a)
    | 1 => some (.j5z a)
    | 2 => some (.j5p a)
    | 3 => some (.j5nn a)
    | 4 => some (.j5nz a)
    | 5 => some (.j5np a)
    | _ => none
  | 46 =>
    match f.toNat with
    | 0 => some (.j6n a)
    | 1 => some (.j6z a)
    | 2 => some (.j6p a)
    | 3 => some (.j6nn a)
    | 4 => some (.j6nz a)
    | 5 => some (.j6np a)
    | _ => none
  | 47 =>
    match f.toNat with
    | 0 => some (.jxn a)
    | 1 => some (.jxz a)
    | 2 => some (.jxp a)
    | 3 => some (.jxnn a)
    | 4 => some (.jxnz a)
    | 5 => some (.jxnp a)
    | _ => none
  | 48 =>
    match f.toNat with
    | 0 => some (.inca a)
    | 1 => some (.deca a)
    | 2 => some (.enta a)
    | 3 => some (.enna a)
    | _ => none
  | 49 =>
    match f.toNat with
    | 0 => some (.inc1 a)
    | 1 => some (.dec1 a)
    | 2 => some (.ent1 a)
    | 3 => some (.enn1 a)
    | _ => none
  | 50 =>
    match f.toNat with
    | 0 => some (.inc2 a)
    | 1 => some (.dec2 a)
    | 2 => some (.ent2 a)
    | 3 => some (.enn2 a)
    | _ => none
  | 51 =>
    match f.toNat with
    | 0 => some (.inc3 a)
    | 1 => some (.dec3 a)
    | 2 => some (.ent3 a)
    | 3 => some (.enn3 a)
    | _ => none
  | 52 =>
    match f.toNat with
    | 0 => some (.inc4 a)
    | 1 => some (.dec4 a)
    | 2 => some (.ent4 a)
    | 3 => some (.enn4 a)
    | _ => none
  | 53 =>
    match f.toNat with
    | 0 => some (.inc5 a)
    | 1 => some (.dec5 a)
    | 2 => some (.ent5 a)
    | 3 => some (.enn5 a)
    | _ => none
  | 54 =>
    match f.toNat with
    | 0 => some (.inc6 a)
    | 1 => some (.dec6 a)
    | 2 => some (.ent6 a)
    | 3 => some (.enn6 a)
    | _ => none
  | 55 =>
    match f.toNat with
    | 0 => some (.incx a)
    | 1 => some (.decx a)
    | 2 => some (.entx a)
    | 3 => some (.ennx a)
    | _ => none
  | 56 => withField f (.cmpa a)
  | 57 => withField f (.cmp1 a)
  | 58 => withField f (.cmp2 a)
  | 59 => withField f (.cmp3 a)
  | 60 => withField f (.cmp4 a)
  | 61 => withField f (.cmp5 a)
  | 62 => withField f (.cmp6 a)
  | _ => withField f (.cmpx a)

/-- The opcodes of the operations the source does not describe: NOP, MOVE, STJ, STZ, the I/O
operations and the register-test jumps (R146). -/
def gkOpcode (c : BitVec 6) : Bool :=
  let n := c.toNat
  n == 0 || n == 7 || (decide (32 ≤ n) && decide (n ≤ 38)) || (decide (40 ≤ n) && decide (n ≤ 47))

/-- What a word decodes to: one of the four outcomes of R160. -/
inductive Decoded where
  | illegalInstruction
  | fieldError (f : BitVec 6)
  | refused (c f : BitVec 6)
  | instr (i : Instr)
  deriving DecidableEq, Repr

/-- The decoder, in the order of R160: the index and opcode check (R141), the F check (R145), the
admission of the operations the source does not describe (R146). -/
def decode (p : Params) (w : Word) : Decoded :=
  let x := unpackInstr w
  match decodeIndex x.i with
  | none => .illegalInstruction
  | some index =>
    if p.maxOpcode.toNat < x.c.toNat then .illegalInstruction
    else
      match decodeOp p x.c x.f ⟨x.as, x.am, index⟩ with
      | none => .fieldError x.f
      | some i => if !p.gkOpsAdmitted && gkOpcode x.c then .refused x.c x.f else .instr i

/-- I of an index operand. -/
def encodeIndex : Option IndexReg → BitVec 6
  | none => 0
  | some .r1 => 1
  | some .r2 => 2
  | some .r3 => 3
  | some .r4 => 4
  | some .r5 => 5
  | some .r6 => 6

/-- F = 8L + R (R135). -/
def fieldByte (f : Field) : BitVec 6 := f.l ++ f.r

/-- C, F and the address part of an instruction (R150). -/
def encodeParts : Instr → BitVec 6 × BitVec 6 × Address
  | .nop a f => (0, fieldByte f, a)
  | .add a f => (1, fieldByte f, a)
  | .sub a f => (2, fieldByte f, a)
  | .mul a f => (3, fieldByte f, a)
  | .div a f => (4, fieldByte f, a)
  | .num a => (5, 0, a)
  | .char a => (5, 1, a)
  | .hlt a => (5, 2, a)
  | .sla a => (6, 0, a)
  | .sra a => (6, 1, a)
  | .slax a => (6, 2, a)
  | .srax a => (6, 3, a)
  | .slc a => (6, 4, a)
  | .src a => (6, 5, a)
  | .move a n => (7, n, a)
  | .lda a f => (8, fieldByte f, a)
  | .ld1 a f => (9, fieldByte f, a)
  | .ld2 a f => (10, fieldByte f, a)
  | .ld3 a f => (11, fieldByte f, a)
  | .ld4 a f => (12, fieldByte f, a)
  | .ld5 a f => (13, fieldByte f, a)
  | .ld6 a f => (14, fieldByte f, a)
  | .ldx a f => (15, fieldByte f, a)
  | .ldan a f => (16, fieldByte f, a)
  | .ld1n a f => (17, fieldByte f, a)
  | .ld2n a f => (18, fieldByte f, a)
  | .ld3n a f => (19, fieldByte f, a)
  | .ld4n a f => (20, fieldByte f, a)
  | .ld5n a f => (21, fieldByte f, a)
  | .ld6n a f => (22, fieldByte f, a)
  | .ldxn a f => (23, fieldByte f, a)
  | .sta a f => (24, fieldByte f, a)
  | .st1 a f => (25, fieldByte f, a)
  | .st2 a f => (26, fieldByte f, a)
  | .st3 a f => (27, fieldByte f, a)
  | .st4 a f => (28, fieldByte f, a)
  | .st5 a f => (29, fieldByte f, a)
  | .st6 a f => (30, fieldByte f, a)
  | .stx a f => (31, fieldByte f, a)
  | .stj a f => (32, fieldByte f, a)
  | .stz a f => (33, fieldByte f, a)
  | .jbus a u => (34, u, a)
  | .ioc a u => (35, u, a)
  | .inp a u => (36, u, a)
  | .out a u => (37, u, a)
  | .jred a u => (38, u, a)
  | .jmp a => (39, 0, a)
  | .jsj a => (39, 1, a)
  | .jov a => (39, 2, a)
  | .jnov a => (39, 3, a)
  | .jl a => (39, 4, a)
  | .je a => (39, 5, a)
  | .jg a => (39, 6, a)
  | .jge a => (39, 7, a)
  | .jne a => (39, 8, a)
  | .jle a => (39, 9, a)
  | .jan a => (40, 0, a)
  | .jaz a => (40, 1, a)
  | .jap a => (40, 2, a)
  | .jann a => (40, 3, a)
  | .janz a => (40, 4, a)
  | .janp a => (40, 5, a)
  | .j1n a => (41, 0, a)
  | .j1z a => (41, 1, a)
  | .j1p a => (41, 2, a)
  | .j1nn a => (41, 3, a)
  | .j1nz a => (41, 4, a)
  | .j1np a => (41, 5, a)
  | .j2n a => (42, 0, a)
  | .j2z a => (42, 1, a)
  | .j2p a => (42, 2, a)
  | .j2nn a => (42, 3, a)
  | .j2nz a => (42, 4, a)
  | .j2np a => (42, 5, a)
  | .j3n a => (43, 0, a)
  | .j3z a => (43, 1, a)
  | .j3p a => (43, 2, a)
  | .j3nn a => (43, 3, a)
  | .j3nz a => (43, 4, a)
  | .j3np a => (43, 5, a)
  | .j4n a => (44, 0, a)
  | .j4z a => (44, 1, a)
  | .j4p a => (44, 2, a)
  | .j4nn a => (44, 3, a)
  | .j4nz a => (44, 4, a)
  | .j4np a => (44, 5, a)
  | .j5n a => (45, 0, a)
  | .j5z a => (45, 1, a)
  | .j5p a => (45, 2, a)
  | .j5nn a => (45, 3, a)
  | .j5nz a => (45, 4, a)
  | .j5np a => (45, 5, a)
  | .j6n a => (46, 0, a)
  | .j6z a => (46, 1, a)
  | .j6p a => (46, 2, a)
  | .j6nn a => (46, 3, a)
  | .j6nz a => (46, 4, a)
  | .j6np a => (46, 5, a)
  | .jxn a => (47, 0, a)
  | .jxz a => (47, 1, a)
  | .jxp a => (47, 2, a)
  | .jxnn a => (47, 3, a)
  | .jxnz a => (47, 4, a)
  | .jxnp a => (47, 5, a)
  | .inca a => (48, 0, a)
  | .deca a => (48, 1, a)
  | .enta a => (48, 2, a)
  | .enna a => (48, 3, a)
  | .inc1 a => (49, 0, a)
  | .dec1 a => (49, 1, a)
  | .ent1 a => (49, 2, a)
  | .enn1 a => (49, 3, a)
  | .inc2 a => (50, 0, a)
  | .dec2 a => (50, 1, a)
  | .ent2 a => (50, 2, a)
  | .enn2 a => (50, 3, a)
  | .inc3 a => (51, 0, a)
  | .dec3 a => (51, 1, a)
  | .ent3 a => (51, 2, a)
  | .enn3 a => (51, 3, a)
  | .inc4 a => (52, 0, a)
  | .dec4 a => (52, 1, a)
  | .ent4 a => (52, 2, a)
  | .enn4 a => (52, 3, a)
  | .inc5 a => (53, 0, a)
  | .dec5 a => (53, 1, a)
  | .ent5 a => (53, 2, a)
  | .enn5 a => (53, 3, a)
  | .inc6 a => (54, 0, a)
  | .dec6 a => (54, 1, a)
  | .ent6 a => (54, 2, a)
  | .enn6 a => (54, 3, a)
  | .incx a => (55, 0, a)
  | .decx a => (55, 1, a)
  | .entx a => (55, 2, a)
  | .ennx a => (55, 3, a)
  | .cmpa a f => (56, fieldByte f, a)
  | .cmp1 a f => (57, fieldByte f, a)
  | .cmp2 a f => (58, fieldByte f, a)
  | .cmp3 a f => (59, fieldByte f, a)
  | .cmp4 a f => (60, fieldByte f, a)
  | .cmp5 a f => (61, fieldByte f, a)
  | .cmp6 a f => (62, fieldByte f, a)
  | .cmpx a f => (63, fieldByte f, a)

/-- The cell of given C, F and address part. -/
def cellOf (x : BitVec 6 × BitVec 6 × Address) : Cell :=
  ⟨x.1, x.2.1, encodeIndex x.2.2.index, x.2.2.mag, x.2.2.sign⟩

/-- The word of an instruction. -/
def encode (i : Instr) : Word := packInstr (cellOf (encodeParts i))

/-- The word whose bits are the low `nbits` bits of `w`; the bits above them are 0. -/
def tableWord (nbits w : Nat) : Option Word :=
  if w % 2 ^ nbits < 2 ^ 31 then some (unpackWord (BitVec.ofNat 31 (w % 2 ^ nbits))) else none

/-- What the decoder reads, under the default parameters, from an instruction whose bits are `w`,
numbered as spec/opcode_table.json numbers them. -/
def decodeTableWord (nbits w : Nat) : Option Instr :=
  match tableWord nbits w with
  | none => none
  | some v =>
    match decode Params.default v with
    | .instr i => some i
    | _ => none

end Sys2Proof
end

