-- ==== Sys2Proof/Machine/State.lean ====
section
/-! DEFINITION. The state of the block as plain data, the reasons a step answers no next state, and the
state right after reset (spec 10_state.md R40, 70_reset_and_hazards.md R550). -/

namespace Sys2Proof.Machine

/-- The comparison indicator CI (R49). -/
inductive Comparison where
  | less
  | equal
  | greater
  deriving DecidableEq, Repr

/-- The fault kinds of 60_exceptions.md R500, each with the info it records besides the pc. -/
inductive Event where
  /-- Decode found I > 6 or C > MAX_OPCODE; records the fetched word (R501). -/
  | illegalInstruction (w : Word)
  /-- F is not legal for the opcode's F role; records F (R502). -/
  | fieldError (f : BitVec 6)
  /-- An address outside memory; records it (R503). -/
  | addressFault (a : Int)
  /-- A negative shift count; records it (R504). -/
  | operandFault (v : Int)
  /-- A write of rIi needing a magnitude ≥ 4096; records i and the value (R505). -/
  | indexAnomaly (i : IndexReg) (v : Int)
  /-- The device oracle answered `fail`; records the unit (R506). -/
  | deviceFault (u : BitVec 6)
  deriving DecidableEq, Repr

/-- An entry of the diagnostics log (R58). -/
structure LogEntry where
  event : Event
  pc    : BitVec 13
  deriving DecidableEq, Repr

/-- The run state (R56). -/
inductive RunState where
  | running
  | halted
  | faulted (event : Event) (pc : BitVec 13)
  | refused (pc : BitVec 13) (c f : BitVec 6)
  deriving DecidableEq, Repr

/-- Memory: the words that are not +0, at strictly rising word addresses (20_memory.md R90; log
entries 2 and 16). -/
abbrev Memory := List (Nat × Word)

/-- Why a step answers no next state. -/
inductive Fault where
  /-- Raised by `step` alone, in a state whose run has ended: no step is taken from HALTED, FAULTED or
  REFUSED (R56).  Safe: the block takes no step there either. -/
  | runEnded
  deriving DecidableEq, Repr

/-- Why an instruction has no meaning. -/
inductive Refusal where
  /-- Raised by an arm of `exec` whose instruction has no meaning in the model yet.  Safe: nothing is
  claimed of it. -/
  | notModelled (mnemonic : String)
  deriving DecidableEq, Repr

/-- The state of the block (R40), then the parameters of the run, which nothing changes (R60), then the
model's own fields for the free inputs of a step: the device answers the host has ready, oldest
first, and how many device calls and draws a run has made (log entries 1, 5, 7). -/
structure State where
  /-- The accumulator (R41). -/
  rA : Word
  /-- The extension register (R42). -/
  rX : Word
  /-- The index registers (R43). -/
  rI1 : IndexWord
  rI2 : IndexWord
  rI3 : IndexWord
  rI4 : IndexWord
  rI5 : IndexWord
  rI6 : IndexWord
  /-- The jump register (R44). -/
  rJ : BitVec 12
  /-- The overflow toggle OV (R48). -/
  ov : Bool
  /-- The comparison indicator CI (R49). -/
  ci : Comparison
  /-- The program counter (R51, R52). -/
  pc : BitVec 13
  /-- The run state (R56). -/
  runState : RunState
  /-- The diagnostics log, oldest entry first (R58). -/
  log : List LogEntry
  /-- Memory (R59). -/
  mem : Memory
  /-- The parameters of the run (00_scope.md R7). -/
  params : Params
  /-- The device oracle's next answers (48_misc.md R480). -/
  oracle : List DeviceAnswer
  /-- How many device calls have been answered. -/
  calls : Nat
  /-- How many draws have been made. -/
  draws : Nat
  deriving DecidableEq, Repr

/-- The machine right after reset: the default launch state of R550 with the default parameters of R7
and START = 0 (log entries 8, 9, 16, 17). -/
def State.reset : State where
  rA       := Word.zero
  rX       := Word.zero
  rI1      := ⟨.plus, 0⟩
  rI2      := ⟨.plus, 0⟩
  rI3      := ⟨.plus, 0⟩
  rI4      := ⟨.plus, 0⟩
  rI5      := ⟨.plus, 0⟩
  rI6      := ⟨.plus, 0⟩
  rJ       := 0
  ov       := false
  ci       := .equal
  pc       := 0
  runState := .running
  log      := []
  mem      := []
  params   := Params.default
  oracle   := []
  calls    := 0
  draws    := 0

end Sys2Proof.Machine
end

