-- ==== Sys2Proof/Machine/Ops.lean ====
section
/-! DEFINITION. The named operations over memory, registers and the pc; taking a fault, a refusal and a
halt; jumps, index-register writes and device calls (spec 10_state.md R47–R58, 20_memory.md R90–R97,
45_jump.md R320–R321, 48_misc.md R480, 60_exceptions.md R500–R512). -/

namespace Sys2Proof.Machine

/-- What an instruction or a step answers. -/
abbrev Answer := Host.Outcome State Fault Refusal

/-- The word at an address; an address not listed holds +0 (70_reset_and_hazards.md R550). -/
def Memory.read : Memory → Nat → Word
  | [], _ => Word.zero
  | (b, v) :: m, a => if a = b then v else Memory.read m a

/-- The memory with one word written; writing +0 takes the address off the list. -/
def Memory.write : Memory → Nat → Word → Memory
  | [], a, w => if w = Word.zero then [] else [(a, w)]
  | (b, v) :: m, a, w =>
    if a < b then (if w = Word.zero then (b, v) :: m else (a, w) :: (b, v) :: m)
    else if a = b then (if w = Word.zero then m else (a, w) :: m)
    else (b, v) :: Memory.write m a w

/-- The canonical form: addresses strictly rising, and no listed word is +0. -/
abbrev Memory.wf (m : Memory) : Prop :=
  m.Pairwise (fun x y => x.1 < y.1) ∧ ∀ c ∈ m, c.2 ≠ Word.zero

/-- Every listed address is below `n`. -/
abbrev Memory.below (m : Memory) (n : Nat) : Prop := ∀ c ∈ m, c.1 < n

/-- An address is in [0, MEM_SIZE−1] (R93). -/
def State.inMemory (s : State) (a : Int) : Bool := decide (0 ≤ a) && decide (a < (s.params.memSize : Int))

/-- The word at an address. -/
def State.word (s : State) (a : Int) : Word := s.mem.read a.toNat

def State.setRA (s : State) (w : Word) : State := { s with rA := w }
def State.setRX (s : State) (w : Word) : State := { s with rX := w }
def State.setJ (s : State) (j : BitVec 12) : State := { s with rJ := j }
def State.setOv (s : State) (b : Bool) : State := { s with ov := b }
def State.setCi (s : State) (c : Comparison) : State := { s with ci := c }
def State.setPc (s : State) (p : BitVec 13) : State := { s with pc := p }
def State.setRun (s : State) (r : RunState) : State := { s with runState := r }
def State.setMem (s : State) (m : Memory) : State := { s with mem := m }

/-- rIk. -/
def State.index (s : State) : IndexReg → IndexWord
  | .r1 => s.rI1
  | .r2 => s.rI2
  | .r3 => s.rI3
  | .r4 => s.rI4
  | .r5 => s.rI5
  | .r6 => s.rI6

/-- rIk ← w. -/
def State.setIndex (s : State) (k : IndexReg) (w : IndexWord) : State :=
  match k with
  | .r1 => { s with rI1 := w }
  | .r2 => { s with rI2 := w }
  | .r3 => { s with rI3 := w }
  | .r4 => { s with rI4 := w }
  | .r5 => { s with rI5 := w }
  | .r6 => { s with rI6 := w }

/-- `record K(info)`: one more entry in the diagnostics log, with the pc of the instruction (R58). -/
def State.record (s : State) (e : Event) : State := { s with log := s.log ++ [⟨e, s.pc⟩] }

/-- The return address, `(pc + 1) mod 4096` (R55). -/
def State.link (s : State) : BitVec 12 := (s.pc + 1).setWidth 12

/-- Taking a fatal fault: nothing is written but the run state, FAULTED(kind, pc, info), and control
goes nowhere (60_exceptions.md R511).  There is no return from it (R513). -/
def raise (e : Event) (s : State) : Answer := .next (s.setRun (.faulted e s.pc))

/-- A refusal of an operation that is not admitted: REFUSED(pc, C, F) (60_exceptions.md R509). -/
def refuse (c f : BitVec 6) (s : State) : Answer := .next (s.setRun (.refused s.pc c f))

/-- The end of an instruction that is not a taken jump: pc ← pc + 1 (R53). -/
def complete (s : State) : Answer := .next (s.setPc (s.pc + 1))

/-- HLT's end of the run: HALTED, and pc ← pc + 1 (R53, R56). -/
def halt (s : State) : Answer := .next ((s.setPc (s.pc + 1)).setRun .halted)

/-- A FieldError under the policy the host chose (60_exceptions.md R502). -/
def fieldError (f : BitVec 6) (s : State) : Answer :=
  match s.params.fieldError with
  | .skip => complete (s.record (.fieldError f))
  | .stop => raise (.fieldError f) s

/-- The word at pc, where pc is in memory (R52). -/
def fetch (s : State) : Option Word :=
  if s.inMemory (s.pc.toNat : Int) then some (s.word (s.pc.toNat : Int)) else none

/-- `check_address(a)`, then `k` (20_memory.md R93). -/
def checked (a : Int) (s : State) (k : Answer) : Answer :=
  if s.inMemory a then k else raise (.addressFault a) s

/-- The first of some addresses that is outside memory. -/
def State.firstOutside (s : State) (as : List Int) : Option Int := as.find? (fun a => !s.inMemory a)

/-- `check_address` of each of some addresses in turn, then `k`. -/
def checkedAll (as : List Int) (s : State) (k : Answer) : Answer :=
  match s.firstOutside as with
  | some a => raise (.addressFault a) s
  | none => k

/-- The write of the value `t`, with sign `sg`, to rIk at the end of an instruction that has made its
other writes in `after`; a magnitude ≥ 4096 is an IndexAnomaly: logged, with the low 12 bits kept,
or fatal with no change to the state `s` before the step (10_state.md R57). -/
def writeIndex (k : IndexReg) (sg : Sign) (t : Int) (after s : State) : Answer :=
  let done := after.setIndex k ⟨sg, BitVec.ofNat 12 t.natAbs⟩
  if t.natAbs < 4096 then complete done
  else
    match s.params.indexAnomaly with
    | .record => complete (done.record (.indexAnomaly k t))
    | .stop => raise (.indexAnomaly k t) s

/-- `write_J` for every jump but JSJ (45_jump.md R321). -/
def State.writeJ (s : State) (taken : Bool) : State :=
  match s.params.jWrite with
  | .always => s.setJ s.link
  | .whenTaken => if taken then s.setJ s.link else s

/-- The jump step of 45_jump.md R320: a taken jump checks its target before any write; `after` is the
state `s` before the step with the writes of the variant other than pc. -/
def jump (m : Int) (taken : Bool) (after s : State) : Answer :=
  if taken then checked m s (.next (after.setPc (BitVec.ofNat 13 m.toNat))) else complete after

/-- The device oracle's answer to one call: the host's next answer, and a free value where the state
holds none (48_misc.md R480). -/
def State.deviceAnswer (s : State) (op : DeviceOp) (u : BitVec 6) (m : Int) : DeviceAnswer :=
  match s.oracle with
  | x :: _ => x
  | [] => Config.device s.calls ⟨op, u, m, s.mem⟩

/-- The state after a device call: that answer is used up. -/
def State.answered (s : State) : State := { s with oracle := s.oracle.tail, calls := s.calls + 1 }

/-- One device call: `fail` is a DeviceFault with no change to `s`, any other answer goes to `k`
(48_misc.md R480, 60_exceptions.md R506). -/
def withDevice (op : DeviceOp) (u : BitVec 6) (m : Int) (s : State)
    (k : Bool → List (Nat × Word) → Answer) : Answer :=
  match s.deviceAnswer op u m with
  | .fail => raise (.deviceFault u) s
  | .answer busy cells => k busy cells

/-- The state after one draw (00_scope.md R16). -/
def State.drawn (s : State) : State := { s with draws := s.draws + 1 }

/-- The next draw. -/
def State.draw (s : State) : Word := Config.draw s.draws

/-- The code of a fault in the host report (60_exceptions.md R500). -/
def Event.code : Event → Nat
  | .illegalInstruction _ => 1
  | .fieldError _ => 2
  | .addressFault _ => 3
  | .operandFault _ => 4
  | .indexAnomaly _ _ => 5
  | .deviceFault _ => 6

/-- The two bits that hold CI (10_state.md R49). -/
def Comparison.bits : Comparison → BitVec 2
  | .equal => 0
  | .less => 1
  | .greater => 2

end Sys2Proof.Machine
end

