-- ==== Sys2Proof/Machine/Operands.lean ====
section
/-! DEFINITION. Operand forms: the effective address, the field engine, register words, and the operand
read from memory (spec 30_encoding.md R142–R144, 20_memory.md R100–R103, 10_state.md R46–R47). -/

namespace Sys2Proof.Machine

/-- `val(A)` (30_encoding.md R133). -/
def addressVal (a : Address) : Int := a.sign.apply a.mag.toNat

/-- `val(M)`: A, plus rI[I] where I is not 0, not reduced (30_encoding.md R142). -/
def effective (a : Address) (s : State) : Int :=
  match a.index with
  | none => addressVal a
  | some k => addressVal a + (s.index k).val

/-- `M.s`: the sign of val(M), and the sign of the address field where val(M) is 0 (R142, R143). -/
def effectiveSign (a : Address) (s : State) : Sign := sgn (effective a s) a.sign

/-- max(L, 1): the first byte of a field (20_memory.md R100). -/
def fieldFirst (f : Field) : Nat := max f.l.toNat 1

/-- The number of bytes of a valid field; 0 for (0:0) (20_memory.md R103). -/
def fieldBytes (f : Field) : Nat := f.r.toNat + 1 - fieldFirst f

/-- The low `n` bytes, all ones. -/
def byteMask (n : Nat) : BitVec 30 := BitVec.ofNat 30 (2 ^ (6 * n) - 1)

/-- `extract(w, L, R)`: bytes max(L,1)..R right-justified, with w's sign where L = 0 and plus
otherwise; (0:0) takes the sign alone (20_memory.md R100). -/
def extractField (w : Word) (f : Field) : Word :=
  ⟨if f.l = 0 then w.sign else .plus, (w.mag >>> (6 * (5 - f.r.toNat))) &&& byteMask (fieldBytes f)⟩

/-- `insert(dst, L, R, src)`: the low bytes of `src` into bytes max(L,1)..R of `dst`, and src's sign
where L = 0 (20_memory.md R101). -/
def insertField (dst : Word) (f : Field) (src : Word) : Word :=
  let sh := 6 * (5 - f.r.toNat)
  let low := byteMask (fieldBytes f)
  ⟨if f.l = 0 then src.sign else dst.sign,
   (dst.mag &&& ~~~(low <<< sh)) ||| ((src.mag &&& low) <<< sh)⟩

/-- Byte i of a word, 1 ≤ i ≤ 5 (00_scope.md R10). -/
def wordByte (w : Word) (i : Nat) : Byte := w.mag.extractLsb' (6 * (5 - i)) 6

/-- `w.b[1..5]`. -/
def wordBytes (w : Word) : List Byte := [wordByte w 1, wordByte w 2, wordByte w 3, wordByte w 4, wordByte w 5]

/-- The magnitude of five bytes, the first the most significant (00_scope.md R11). -/
def magOfBytes (bs : List Byte) : BitVec 30 := BitVec.ofNat 30 (bs.foldl (fun n b => 64 * n + b.toNat) 0)

/-- A word with its five bytes replaced and its sign kept. -/
def withBytes (w : Word) (bs : List Byte) : Word := ⟨w.sign, magOfBytes bs⟩

/-- The operand of a load, an arithmetic instruction or a compare: the word at M, where M is in memory
(20_memory.md R92, R93). -/
def withOperand (a : Address) (s : State) (k : Word → Answer) : Answer :=
  checked (effective a s) s (k (s.word (effective a s)))

end Sys2Proof.Machine
end

