-- ==== Sys2Proof/Machine/Flags.lean ====
section
/-! DEFINITION. OV, CI and the jump conditions that read them or a register (spec 10_state.md R48, R49;
44_compare.md R300; 45_jump.md R322; 46_register_jump.md R350). -/

namespace Sys2Proof.Machine

/-- OV is set on overflow and otherwise left as it was (10_state.md R48). -/
def State.orOv (s : State) (overflow : Bool) : State := s.setOv (s.ov || overflow)

/-- CI for the compared values: −0 and +0 are equal (44_compare.md R300). -/
def compareVals (p q : Int) : Comparison :=
  if p < q then .less else if p = q then .equal else .greater

/-- A register against the memory word, both through the field (44_compare.md R300). -/
def compareWords (r w : Word) (f : Field) : Comparison :=
  compareVals (extractField r f).val (extractField w f).val

/-- The tests of the register-test jumps (46_register_jump.md R350). -/
inductive RegTest where
  | n
  | z
  | p
  | nn
  | nz
  | np
  deriving DecidableEq, Repr

/-- Whether a register's value passes a test (46_register_jump.md R350). -/
def testHolds (v : Int) : RegTest → Bool
  | .n => decide (v < 0)
  | .z => decide (v = 0)
  | .p => decide (0 < v)
  | .nn => decide (0 ≤ v)
  | .nz => decide (v ≠ 0)
  | .np => decide (v ≤ 0)

end Sys2Proof.Machine
end

