-- ==== Sys2Proof/Machine/Alu.lean ====
section
/-! DEFINITION. The alu's functions: add, multiply and divide, the shifts, and the digit conversions
(spec 10_state.md R64; 42_arithmetic.md R250–R253; 43_shift.md R280–R282; 48_misc.md R470, R471). -/

namespace Sys2Proof.Machine

/-- `add(r, v)`: the exact sum; a zero sum keeps r's sign; a magnitude ≥ 64^5 overflows and keeps the
low five bytes, with the sign of the sum (42_arithmetic.md R250). -/
def addLaw (r : Word) (v : Int) : Word × Bool :=
  let t := r.val + v
  if t = 0 then (⟨r.sign, 0⟩, false)
  else if 64 ^ 5 ≤ t.natAbs then (⟨sgn t .plus, BitVec.ofNat 30 (t.natAbs - 64 ^ 5)⟩, true)
  else (⟨sgn t .plus, BitVec.ofNat 30 t.natAbs⟩, false)

/-- Plus where two signs agree, minus otherwise. -/
def productSign (s t : Sign) : Sign := if s = t then .plus else .minus

/-- `mul(a, v)`: the new rA and rX (42_arithmetic.md R252). -/
def mulLaw (a v : Word) : Word × Word :=
  let p := a.mag.toNat * v.mag.toNat
  let s := productSign a.sign v.sign
  (⟨s, BitVec.ofNat 30 (p / 64 ^ 5)⟩, ⟨s, BitVec.ofNat 30 (p % 64 ^ 5)⟩)

/-- `div(a, x, v)`: the new rA and rX; `none` is the overflow, where V is 0 or the quotient does not
fit in five bytes (42_arithmetic.md R253). -/
def divLaw (a x v : Word) : Option (Word × Word) :=
  if v.mag.toNat = 0 ∨ v.mag.toNat ≤ a.mag.toNat then none
  else
    let n := a.mag.toNat * 64 ^ 5 + x.mag.toNat
    some (⟨productSign a.sign v.sign, BitVec.ofNat 30 (n / v.mag.toNat)⟩,
          ⟨a.sign, BitVec.ofNat 30 (n % v.mag.toNat)⟩)

/-- `shl(B, n)` (43_shift.md R280). -/
def shl (bs : List Byte) (n : Nat) : List Byte := bs.drop n ++ List.replicate (min n bs.length) 0

/-- `shr(B, n)` (43_shift.md R280). -/
def shr (bs : List Byte) (n : Nat) : List Byte :=
  List.replicate (min n bs.length) 0 ++ bs.take (bs.length - n)

/-- `rotl(B, n)` (43_shift.md R280). -/
def rotl (bs : List Byte) (n : Nat) : List Byte :=
  bs.drop (n % bs.length) ++ bs.take (n % bs.length)

/-- `rotr(B, n)` (43_shift.md R280). -/
def rotr (bs : List Byte) (n : Nat) : List Byte :=
  bs.drop (bs.length - n % bs.length) ++ bs.take (bs.length - n % bs.length)

/-- A non-zero byte among those a left shift by `n` moves out past byte 1 (43_shift.md R282). -/
def shiftedOut (bs : List Byte) (n : Nat) : Bool := (bs.take n).any (fun b => b != 0)

/-- The number the digits of rA and rX make: the digit of a byte b is b mod 10 (48_misc.md R470). -/
def digitsValue (bs : List Byte) : Nat := bs.foldl (fun n b => 10 * n + b.toNat % 10) 0

/-- The character byte of the decimal digit of weight 10^e of `n`: 30 + d (48_misc.md R471). -/
def digitByte (n e : Nat) : Byte := BitVec.ofNat 6 (30 + n / 10 ^ e % 10)

end Sys2Proof.Machine
end

