-- ==== Sys2Proof/Machine/Arithmetic.lean ====
section
/-! DEFINITION. ADD, SUB, MUL, DIV, opcodes 1–4 (spec 42_arithmetic.md). -/

namespace Sys2Proof.Machine

/-- The operand V of an arithmetic instruction: the field of the word at M (R254). -/
def withV (a : Address) (f : Field) (s : State) (k : Word → Answer) : Answer :=
  withOperand a s fun w => k (extractField w f)

/-- rA ← add(rA, v), OV set on overflow (R250, R255). -/
def addToA (v : Int) (s : State) : State := (s.setRA (addLaw s.rA v).1).orOv (addLaw s.rA v).2

/-- DIV's overflow: OV is set, rA and rX are two draws, free values both (R253; log entry 7). -/
def divOverflow (s : State) : State :=
  (((s.setRA s.draw).setRX s.drawn.draw).setOv true).drawn.drawn

/-- ADD: add the operand to rA (R256). -/
def execAdd (a : Address) (f : Field) (s : State) : Answer :=
  withV a f s fun v => complete (addToA v.val s)

/-- SUB: subtract the operand from rA (R257). -/
def execSub (a : Address) (f : Field) (s : State) : Answer :=
  withV a f s fun v => complete (addToA (-v.val) s)

/-- MUL: multiply rA by the operand into rA:rX (R258). -/
def execMul (a : Address) (f : Field) (s : State) : Answer :=
  withV a f s fun v => complete ((s.setRA (mulLaw s.rA v).1).setRX (mulLaw s.rA v).2)

/-- DIV: divide rA:rX by the operand (R259). -/
def execDiv (a : Address) (f : Field) (s : State) : Answer :=
  withV a f s fun v =>
    match divLaw s.rA s.rX v with
    | some (q, r) => complete ((s.setRA q).setRX r)
    | none => complete (divOverflow s)

end Sys2Proof.Machine
end

