-- ==== Sys2Proof/Machine/AddressTransfer.lean ====
section
/-! DEFINITION. INCr, DECr, ENTr, ENNr, opcodes 48–55 (spec 47_address_transfer.md). -/

namespace Sys2Proof.Machine

/-- rX ← add(rX, v), OV set on overflow (R420). -/
def addToX (v : Int) (s : State) : State := (s.setRX (addLaw s.rX v).1).orOv (addLaw s.rX v).2

/-- The word of the value of M, which is at most 8190 in magnitude, with a given sign (R422). -/
def enteredWord (sg : Sign) (v : Int) : Word := ⟨sg, BitVec.ofNat 30 v.natAbs⟩

/-- The sign ENNr enters (R423). -/
def ennSign (a : Address) (s : State) : Sign :=
  match s.params.enn with
  | .forceNegative => .minus
  | .negate => (effectiveSign a s).opposite

/-- rIk ← val(rIk) + v, a zero result keeping the sign of rIk (R421). -/
def addToIndex (k : IndexReg) (v : Int) (s : State) : Answer :=
  let t := (s.index k).val + v
  writeIndex k (sgn t (s.index k).sign) t s s

/-- rIk ← (sg, |val(M)|) (R422, R423). -/
def enterIndex (k : IndexReg) (sg : Sign) (a : Address) (s : State) : Answer :=
  writeIndex k sg (effective a s) s s

/-- INCA: add val(M) to rA (R424). -/
def execInca (a : Address) (s : State) : Answer :=
  complete (addToA (effective a s) s)

/-- DECA: subtract val(M) from rA (R425). -/
def execDeca (a : Address) (s : State) : Answer :=
  complete (addToA (-effective a s) s)

/-- ENTA: rA ← M (R426). -/
def execEnta (a : Address) (s : State) : Answer :=
  complete (s.setRA (enteredWord (effectiveSign a s) (effective a s)))

/-- ENNA: rA ← M, negative (R427). -/
def execEnna (a : Address) (s : State) : Answer :=
  complete (s.setRA (enteredWord (ennSign a s) (effective a s)))

/-- INC1: add val(M) to rI1 (R428). -/
def execInc1 (a : Address) (s : State) : Answer :=
  addToIndex .r1 (effective a s) s

/-- DEC1: subtract val(M) from rI1 (R429). -/
def execDec1 (a : Address) (s : State) : Answer :=
  addToIndex .r1 (-effective a s) s

/-- ENT1: rI1 ← M (R430). -/
def execEnt1 (a : Address) (s : State) : Answer :=
  enterIndex .r1 (effectiveSign a s) a s

/-- ENN1: rI1 ← M, negative (R431). -/
def execEnn1 (a : Address) (s : State) : Answer :=
  enterIndex .r1 (ennSign a s) a s

/-- INC2: add val(M) to rI2 (R432). -/
def execInc2 (a : Address) (s : State) : Answer :=
  addToIndex .r2 (effective a s) s

/-- DEC2: subtract val(M) from rI2 (R433). -/
def execDec2 (a : Address) (s : State) : Answer :=
  addToIndex .r2 (-effective a s) s

/-- ENT2: rI2 ← M (R434). -/
def execEnt2 (a : Address) (s : State) : Answer :=
  enterIndex .r2 (effectiveSign a s) a s

/-- ENN2: rI2 ← M, negative (R435). -/
def execEnn2 (a : Address) (s : State) : Answer :=
  enterIndex .r2 (ennSign a s) a s

/-- INC3: add val(M) to rI3 (R436). -/
def execInc3 (a : Address) (s : State) : Answer :=
  addToIndex .r3 (effective a s) s

/-- DEC3: subtract val(M) from rI3 (R437). -/
def execDec3 (a : Address) (s : State) : Answer :=
  addToIndex .r3 (-effective a s) s

/-- ENT3: rI3 ← M (R438). -/
def execEnt3 (a : Address) (s : State) : Answer :=
  enterIndex .r3 (effectiveSign a s) a s

/-- ENN3: rI3 ← M, negative (R439). -/
def execEnn3 (a : Address) (s : State) : Answer :=
  enterIndex .r3 (ennSign a s) a s

/-- INC4: add val(M) to rI4 (R440). -/
def execInc4 (a : Address) (s : State) : Answer :=
  addToIndex .r4 (effective a s) s

/-- DEC4: subtract val(M) from rI4 (R441). -/
def execDec4 (a : Address) (s : State) : Answer :=
  addToIndex .r4 (-effective a s) s

/-- ENT4: rI4 ← M (R442). -/
def execEnt4 (a : Address) (s : State) : Answer :=
  enterIndex .r4 (effectiveSign a s) a s

/-- ENN4: rI4 ← M, negative (R443). -/
def execEnn4 (a : Address) (s : State) : Answer :=
  enterIndex .r4 (ennSign a s) a s

/-- INC5: add val(M) to rI5 (R444). -/
def execInc5 (a : Address) (s : State) : Answer :=
  addToIndex .r5 (effective a s) s

/-- DEC5: subtract val(M) from rI5 (R445). -/
def execDec5 (a : Address) (s : State) : Answer :=
  addToIndex .r5 (-effective a s) s

/-- ENT5: rI5 ← M (R446). -/
def execEnt5 (a : Address) (s : State) : Answer :=
  enterIndex .r5 (effectiveSign a s) a s

/-- ENN5: rI5 ← M, negative (R447). -/
def execEnn5 (a : Address) (s : State) : Answer :=
  enterIndex .r5 (ennSign a s) a s

/-- INC6: add val(M) to rI6 (R448). -/
def execInc6 (a : Address) (s : State) : Answer :=
  addToIndex .r6 (effective a s) s

/-- DEC6: subtract val(M) from rI6 (R449). -/
def execDec6 (a : Address) (s : State) : Answer :=
  addToIndex .r6 (-effective a s) s

/-- ENT6: rI6 ← M (R450). -/
def execEnt6 (a : Address) (s : State) : Answer :=
  enterIndex .r6 (effectiveSign a s) a s

/-- ENN6: rI6 ← M, negative (R451). -/
def execEnn6 (a : Address) (s : State) : Answer :=
  enterIndex .r6 (ennSign a s) a s

/-- INCX: add val(M) to rX (R452). -/
def execIncx (a : Address) (s : State) : Answer :=
  complete (addToX (effective a s) s)

/-- DECX: subtract val(M) from rX (R453). -/
def execDecx (a : Address) (s : State) : Answer :=
  complete (addToX (-effective a s) s)

/-- ENTX: rX ← M (R454). -/
def execEntx (a : Address) (s : State) : Answer :=
  complete (s.setRX (enteredWord (effectiveSign a s) (effective a s)))

/-- ENNX: rX ← M, negative (R455). -/
def execEnnx (a : Address) (s : State) : Answer :=
  complete (s.setRX (enteredWord (ennSign a s) (effective a s)))

end Sys2Proof.Machine
end

