-- ==== Sys2Proof/Machine/Compare.lean ====
section
/-! DEFINITION. The compares, opcodes 56–63 (spec 44_compare.md). -/

namespace Sys2Proof.Machine

/-- A compare of a register, read as a word, with the word at M (R300, R301). -/
def compareField (r : Word) (a : Address) (f : Field) (s : State) : Answer :=
  withOperand a s fun w => complete (s.setCi (compareWords r w f))

/-- CMPA: compare rA (R304). -/
def execCmpa (a : Address) (f : Field) (s : State) : Answer :=
  compareField s.rA a f s

/-- CMP1: compare rI1 (R305). -/
def execCmp1 (a : Address) (f : Field) (s : State) : Answer :=
  compareField s.rI1.word a f s

/-- CMP2: compare rI2 (R306). -/
def execCmp2 (a : Address) (f : Field) (s : State) : Answer :=
  compareField s.rI2.word a f s

/-- CMP3: compare rI3 (R307). -/
def execCmp3 (a : Address) (f : Field) (s : State) : Answer :=
  compareField s.rI3.word a f s

/-- CMP4: compare rI4 (R308). -/
def execCmp4 (a : Address) (f : Field) (s : State) : Answer :=
  compareField s.rI4.word a f s

/-- CMP5: compare rI5 (R309). -/
def execCmp5 (a : Address) (f : Field) (s : State) : Answer :=
  compareField s.rI5.word a f s

/-- CMP6: compare rI6 (R310). -/
def execCmp6 (a : Address) (f : Field) (s : State) : Answer :=
  compareField s.rI6.word a f s

/-- CMPX: compare rX (R311). -/
def execCmpx (a : Address) (f : Field) (s : State) : Answer :=
  compareField s.rX a f s

end Sys2Proof.Machine
end

