-- ==== Sys2Proof/Machine/Jump.lean ====
section
/-! DEFINITION. The jumps of opcode 39 (spec 45_jump.md). -/

namespace Sys2Proof.Machine

/-- A jump that records the return address in rJ by the policy (R320, R321). -/
def linkJump (a : Address) (taken : Bool) (s : State) : Answer :=
  jump (effective a s) taken (s.writeJ taken) s

/-- A jump that also tests and clears OV (R322, R326, R327). -/
def overflowJump (a : Address) (taken : Bool) (s : State) : Answer :=
  jump (effective a s) taken ((s.writeJ taken).setOv false) s

/-- JMP: jump (R324). -/
def execJmp (a : Address) (s : State) : Answer :=
  linkJump a true s

/-- JSJ: jump, rJ kept (R325). -/
def execJsj (a : Address) (s : State) : Answer :=
  jump (effective a s) true s s

/-- JOV: jump on overflow, OV cleared (R326). -/
def execJov (a : Address) (s : State) : Answer :=
  overflowJump a s.ov s

/-- JNOV: jump on no overflow, OV cleared (R327). -/
def execJnov (a : Address) (s : State) : Answer :=
  overflowJump a (!s.ov) s

/-- JL: jump on less (R328). -/
def execJl (a : Address) (s : State) : Answer :=
  linkJump a (decide (s.ci = .less)) s

/-- JE: jump on equal (R329). -/
def execJe (a : Address) (s : State) : Answer :=
  linkJump a (decide (s.ci = .equal)) s

/-- JG: jump on greater (R330). -/
def execJg (a : Address) (s : State) : Answer :=
  linkJump a (decide (s.ci = .greater)) s

/-- JGE: jump on greater or equal (R331). -/
def execJge (a : Address) (s : State) : Answer :=
  linkJump a (decide (s.ci ≠ .less)) s

/-- JNE: jump on not equal (R332). -/
def execJne (a : Address) (s : State) : Answer :=
  linkJump a (decide (s.ci ≠ .equal)) s

/-- JLE: jump on less or equal (R333). -/
def execJle (a : Address) (s : State) : Answer :=
  linkJump a (decide (s.ci ≠ .greater)) s

end Sys2Proof.Machine
end

