-- ==== Sys2Proof/Machine/Io.lean ====
section
/-! DEFINITION. JBUS, IOC, IN, OUT, JRED, opcodes 34–38 (spec 48_misc.md R480–R485). -/

namespace Sys2Proof.Machine

/-- The addresses of `IO_BLOCK(u, m)` that a block given by its addresses lists (R480). -/
def blockAddresses (b : IoBlock) (u : BitVec 6) (m : Int) : List Int :=
  match b with
  | .allMemory => []
  | .span sizes => (List.range ((sizes.lookup u).getD 0)).map fun (j : Nat) => m + j
  | .table rows => (rows.lookup (u, m)).getD []

/-- Whether an address is in `IO_BLOCK(u, m)` (R480). -/
def inBlock (b : IoBlock) (u : BitVec 6) (m : Int) (x : Nat) : Bool :=
  match b with
  | .allMemory => true
  | .span sizes => (blockAddresses (.span sizes) u m).contains (x : Int)
  | .table rows => (blockAddresses (.table rows) u m).contains (x : Int)

/-- `check_address(val(M))` and the check of every address of the block, then `k` (R483, R484). -/
def checkedBlock (u : BitVec 6) (m : Int) (s : State) (k : Answer) : Answer :=
  checkedAll (m :: blockAddresses s.params.ioBlock u m) s k

/-- The memory IN leaves: the oracle's words, at the addresses of the block alone (R480, R483). -/
def inputCells (p : Params) (u : BitVec 6) (m : Int) : List (Nat × Word) → Memory → Memory
  | [], mem => mem
  | (x, w) :: cs, mem =>
    inputCells p u m cs
      (if decide (x < p.memSize) && inBlock p.ioBlock u m x then mem.write x w else mem)

/-- A jump on a device's answer: the oracle is asked before the target is checked (R481, R485). -/
def deviceJump (op : DeviceOp) (jumpsWhenBusy : Bool) (a : Address) (u : BitVec 6) (s : State) : Answer :=
  withDevice op u (effective a s) s fun busy _ =>
    jump (effective a s) (busy == jumpsWhenBusy) (s.answered.writeJ (busy == jumpsWhenBusy)) s

/-- JBUS: jump if the unit is busy (R481). -/
def execJbus (a : Address) (u : BitVec 6) (s : State) : Answer :=
  deviceJump .jbus true a u s

/-- IOC: I/O control (R482). -/
def execIoc (a : Address) (u : BitVec 6) (s : State) : Answer :=
  withDevice .ioc u (effective a s) s fun _ _ => complete s.answered

/-- IN: input a block to memory at M (R483). -/
def execInp (a : Address) (u : BitVec 6) (s : State) : Answer :=
  checkedBlock u (effective a s) s
    (withDevice .inp u (effective a s) s fun _ cells =>
      complete (s.answered.setMem (inputCells s.params u (effective a s) cells s.mem)))

/-- OUT: output a block from memory at M (R484). -/
def execOut (a : Address) (u : BitVec 6) (s : State) : Answer :=
  checkedBlock u (effective a s) s
    (withDevice .out u (effective a s) s fun _ _ => complete s.answered)

/-- JRED: jump if the unit is ready (R485). -/
def execJred (a : Address) (u : BitVec 6) (s : State) : Answer :=
  deviceJump .jred false a u s

end Sys2Proof.Machine
end

