-- ==== Sys2Proof/Machine/Load.lean ====
section
/-! DEFINITION. The loads, opcodes 8–23 (spec 40_load.md). -/

namespace Sys2Proof.Machine

/-- A load: the field of the word at M, its sign inverted by the negative variants, goes to `k`
(R200, R201). -/
def load (negative : Bool) (a : Address) (f : Field) (s : State) (k : Word → Answer) : Answer :=
  withOperand a s fun w => k (if negative then (extractField w f).negate else extractField w f)

/-- A load of an index register, where a magnitude ≥ 4096 is an IndexAnomaly (R202). -/
def loadIndex (i : IndexReg) (negative : Bool) (a : Address) (f : Field) (s : State) : Answer :=
  load negative a f s fun v => writeIndex i v.sign v.val s s

/-- LDA: load rA (R204). -/
def execLda (a : Address) (f : Field) (s : State) : Answer :=
  load false a f s fun v => complete (s.setRA v)

/-- LD1: load rI1 (R205). -/
def execLd1 (a : Address) (f : Field) (s : State) : Answer :=
  loadIndex .r1 false a f s

/-- LD2: load rI2 (R206). -/
def execLd2 (a : Address) (f : Field) (s : State) : Answer :=
  loadIndex .r2 false a f s

/-- LD3: load rI3 (R207). -/
def execLd3 (a : Address) (f : Field) (s : State) : Answer :=
  loadIndex .r3 false a f s

/-- LD4: load rI4 (R208). -/
def execLd4 (a : Address) (f : Field) (s : State) : Answer :=
  loadIndex .r4 false a f s

/-- LD5: load rI5 (R209). -/
def execLd5 (a : Address) (f : Field) (s : State) : Answer :=
  loadIndex .r5 false a f s

/-- LD6: load rI6 (R210). -/
def execLd6 (a : Address) (f : Field) (s : State) : Answer :=
  loadIndex .r6 false a f s

/-- LDX: load rX (R211). -/
def execLdx (a : Address) (f : Field) (s : State) : Answer :=
  load false a f s fun v => complete (s.setRX v)

/-- LDAN: load rA negative (R212). -/
def execLdan (a : Address) (f : Field) (s : State) : Answer :=
  load true a f s fun v => complete (s.setRA v)

/-- LD1N: load rI1 negative (R213). -/
def execLd1n (a : Address) (f : Field) (s : State) : Answer :=
  loadIndex .r1 true a f s

/-- LD2N: load rI2 negative (R214). -/
def execLd2n (a : Address) (f : Field) (s : State) : Answer :=
  loadIndex .r2 true a f s

/-- LD3N: load rI3 negative (R215). -/
def execLd3n (a : Address) (f : Field) (s : State) : Answer :=
  loadIndex .r3 true a f s

/-- LD4N: load rI4 negative (R216). -/
def execLd4n (a : Address) (f : Field) (s : State) : Answer :=
  loadIndex .r4 true a f s

/-- LD5N: load rI5 negative (R217). -/
def execLd5n (a : Address) (f : Field) (s : State) : Answer :=
  loadIndex .r5 true a f s

/-- LD6N: load rI6 negative (R218). -/
def execLd6n (a : Address) (f : Field) (s : State) : Answer :=
  loadIndex .r6 true a f s

/-- LDXN: load rX negative (R219). -/
def execLdxn (a : Address) (f : Field) (s : State) : Answer :=
  load true a f s fun v => complete (s.setRX v)

end Sys2Proof.Machine
end

