-- ==== Sys2Proof/Machine/Shift.lean ====
section
/-! DEFINITION. The shifts, opcode 6 (spec 43_shift.md). -/

namespace Sys2Proof.Machine

/-- The shift count val(M), where it is not negative; a negative one is an OperandFault (R281). -/
def withCount (a : Address) (s : State) (k : Nat → Answer) : Answer :=
  if effective a s < 0 then raise (.operandFault (effective a s)) s else k (effective a s).toNat

/-- A shift of rA alone; signs never move (R280). -/
def shiftA (sh : List Byte → Nat → List Byte) (n : Nat) (s : State) : State :=
  s.setRA (withBytes s.rA (sh (wordBytes s.rA) n))

/-- The ten bytes of rA:rX (R280). -/
def bytesAX (s : State) : List Byte := wordBytes s.rA ++ wordBytes s.rX

/-- A shift of rA:rX as ten bytes; signs never move (R280). -/
def shiftAX (sh : List Byte → Nat → List Byte) (n : Nat) (s : State) : State :=
  (s.setRA (withBytes s.rA ((sh (bytesAX s) n).take 5))).setRX
    (withBytes s.rX ((sh (bytesAX s) n).drop 5))

/-- OV after SLA or SLAX: set where SHIFT_SETS_OVERFLOW holds and a non-zero byte was shifted out
(R282; log entry 12). -/
def shiftOv (bs : List Byte) (n : Nat) (s : State) : State :=
  s.orOv (s.params.shiftSetsOverflow && shiftedOut bs n)

/-- SLA: shift rA left (R284). -/
def execSla (a : Address) (s : State) : Answer :=
  withCount a s fun n => complete (shiftOv (wordBytes s.rA) n (shiftA shl n s))

/-- SRA: shift rA right (R285). -/
def execSra (a : Address) (s : State) : Answer :=
  withCount a s fun n => complete (shiftA shr n s)

/-- SLAX: shift rA:rX left (R286). -/
def execSlax (a : Address) (s : State) : Answer :=
  withCount a s fun n => complete (shiftOv (bytesAX s) n (shiftAX shl n s))

/-- SRAX: shift rA:rX right (R287). -/
def execSrax (a : Address) (s : State) : Answer :=
  withCount a s fun n => complete (shiftAX shr n s)

/-- SLC: rotate rA:rX left (R288). -/
def execSlc (a : Address) (s : State) : Answer :=
  withCount a s fun n => complete (shiftAX rotl n s)

/-- SRC: rotate rA:rX right (R289). -/
def execSrc (a : Address) (s : State) : Answer :=
  withCount a s fun n => complete (shiftAX rotr n s)

end Sys2Proof.Machine
end

