-- ==== Sys2Proof/Machine/Misc.lean ====
section
/-! DEFINITION. NUM, CHAR, HLT, NOP, MOVE (spec 48_misc.md R470–R474). -/

namespace Sys2Proof.Machine

/-- The ten character bytes of a number, most significant digit first (R471). -/
def digitBytes (n : Nat) : List Byte := [9, 8, 7, 6, 5, 4, 3, 2, 1, 0].map (digitByte n)

/-- The addresses MOVE checks, in the order its rule checks them (R474; log entry 14). -/
def moveAddresses (src dst : Int) (n : Nat) : List Int :=
  (List.range n).flatMap fun (j : Nat) => [src + j, dst + j]

/-- The copy of `n` words, in increasing address order, each read seeing the earlier writes (R474). -/
def moveWords (src dst : Nat) : Nat → Memory → Memory
  | 0, m => m
  | n + 1, m => moveWords (src + 1) (dst + 1) n (m.write dst (m.read src))

/-- NUM: the digits of rA:rX to a number in rA (R470). -/
def execNum (_a : Address) (s : State) : Answer :=
  complete (s.setRA ⟨s.rA.sign, BitVec.ofNat 30 (digitsValue (bytesAX s) % 64 ^ 5)⟩)

/-- CHAR: the number in rA to digit characters in rA:rX (R471). -/
def execChar (_a : Address) (s : State) : Answer :=
  complete ((s.setRA (withBytes s.rA ((digitBytes s.rA.mag.toNat).take 5))).setRX
    (withBytes s.rX ((digitBytes s.rA.mag.toNat).drop 5)))

/-- HLT: halt (R472). -/
def execHlt (_a : Address) (s : State) : Answer :=
  halt s

/-- NOP: no operation (R473). -/
def execNop (_a : Address) (_f : Field) (s : State) : Answer :=
  complete s

/-- MOVE: move words from M to the address in rI1 (R474). -/
def execMove (a : Address) (n : BitVec 6) (s : State) : Answer :=
  let src := effective a s
  let dst := s.rI1.val
  checkedAll (moveAddresses src dst n.toNat) s
    (writeIndex .r1 (sgn (dst + n.toNat) s.rI1.sign) (dst + n.toNat)
      (s.setMem (moveWords src.toNat dst.toNat n.toNat s.mem)) s)

end Sys2Proof.Machine
end

