-- ==== Sys2Proof/Machine/RegisterJump.lean ====
section
/-! DEFINITION. The register-test jumps, opcodes 40–47 (spec 46_register_jump.md). -/

namespace Sys2Proof.Machine

/-- A jump on the test of a register's value (R350, R351). -/
def testJump (v : Int) (t : RegTest) (a : Address) (s : State) : Answer := linkJump a (testHolds v t) s

/-- JAN: jump if rA is negative (R352). -/
def execJan (a : Address) (s : State) : Answer :=
  testJump s.rA.val .n a s

/-- JAZ: jump if rA is zero (R353). -/
def execJaz (a : Address) (s : State) : Answer :=
  testJump s.rA.val .z a s

/-- JAP: jump if rA is positive (R354). -/
def execJap (a : Address) (s : State) : Answer :=
  testJump s.rA.val .p a s

/-- JANN: jump if rA is non-negative (R355). -/
def execJann (a : Address) (s : State) : Answer :=
  testJump s.rA.val .nn a s

/-- JANZ: jump if rA is non-zero (R356). -/
def execJanz (a : Address) (s : State) : Answer :=
  testJump s.rA.val .nz a s

/-- JANP: jump if rA is non-positive (R357). -/
def execJanp (a : Address) (s : State) : Answer :=
  testJump s.rA.val .np a s

/-- J1N: jump if rI1 is negative (R358). -/
def execJ1n (a : Address) (s : State) : Answer :=
  testJump s.rI1.val .n a s

/-- J1Z: jump if rI1 is zero (R359). -/
def execJ1z (a : Address) (s : State) : Answer :=
  testJump s.rI1.val .z a s

/-- J1P: jump if rI1 is positive (R360). -/
def execJ1p (a : Address) (s : State) : Answer :=
  testJump s.rI1.val .p a s

/-- J1NN: jump if rI1 is non-negative (R361). -/
def execJ1nn (a : Address) (s : State) : Answer :=
  testJump s.rI1.val .nn a s

/-- J1NZ: jump if rI1 is non-zero (R362). -/
def execJ1nz (a : Address) (s : State) : Answer :=
  testJump s.rI1.val .nz a s

/-- J1NP: jump if rI1 is non-positive (R363). -/
def execJ1np (a : Address) (s : State) : Answer :=
  testJump s.rI1.val .np a s

/-- J2N: jump if rI2 is negative (R364). -/
def execJ2n (a : Address) (s : State) : Answer :=
  testJump s.rI2.val .n a s

/-- J2Z: jump if rI2 is zero (R365). -/
def execJ2z (a : Address) (s : State) : Answer :=
  testJump s.rI2.val .z a s

/-- J2P: jump if rI2 is positive (R366). -/
def execJ2p (a : Address) (s : State) : Answer :=
  testJump s.rI2.val .p a s

/-- J2NN: jump if rI2 is non-negative (R367). -/
def execJ2nn (a : Address) (s : State) : Answer :=
  testJump s.rI2.val .nn a s

/-- J2NZ: jump if rI2 is non-zero (R368). -/
def execJ2nz (a : Address) (s : State) : Answer :=
  testJump s.rI2.val .nz a s

/-- J2NP: jump if rI2 is non-positive (R369). -/
def execJ2np (a : Address) (s : State) : Answer :=
  testJump s.rI2.val .np a s

/-- J3N: jump if rI3 is negative (R370). -/
def execJ3n (a : Address) (s : State) : Answer :=
  testJump s.rI3.val .n a s

/-- J3Z: jump if rI3 is zero (R371). -/
def execJ3z (a : Address) (s : State) : Answer :=
  testJump s.rI3.val .z a s

/-- J3P: jump if rI3 is positive (R372). -/
def execJ3p (a : Address) (s : State) : Answer :=
  testJump s.rI3.val .p a s

/-- J3NN: jump if rI3 is non-negative (R373). -/
def execJ3nn (a : Address) (s : State) : Answer :=
  testJump s.rI3.val .nn a s

/-- J3NZ: jump if rI3 is non-zero (R374). -/
def execJ3nz (a : Address) (s : State) : Answer :=
  testJump s.rI3.val .nz a s

/-- J3NP: jump if rI3 is non-positive (R375). -/
def execJ3np (a : Address) (s : State) : Answer :=
  testJump s.rI3.val .np a s

/-- J4N: jump if rI4 is negative (R376). -/
def execJ4n (a : Address) (s : State) : Answer :=
  testJump s.rI4.val .n a s

/-- J4Z: jump if rI4 is zero (R377). -/
def execJ4z (a : Address) (s : State) : Answer :=
  testJump s.rI4.val .z a s

/-- J4P: jump if rI4 is positive (R378). -/
def execJ4p (a : Address) (s : State) : Answer :=
  testJump s.rI4.val .p a s

/-- J4NN: jump if rI4 is non-negative (R379). -/
def execJ4nn (a : Address) (s : State) : Answer :=
  testJump s.rI4.val .nn a s

/-- J4NZ: jump if rI4 is non-zero (R380). -/
def execJ4nz (a : Address) (s : State) : Answer :=
  testJump s.rI4.val .nz a s

/-- J4NP: jump if rI4 is non-positive (R381). -/
def execJ4np (a : Address) (s : State) : Answer :=
  testJump s.rI4.val .np a s

/-- J5N: jump if rI5 is negative (R382). -/
def execJ5n (a : Address) (s : State) : Answer :=
  testJump s.rI5.val .n a s

/-- J5Z: jump if rI5 is zero (R383). -/
def execJ5z (a : Address) (s : State) : Answer :=
  testJump s.rI5.val .z a s

/-- J5P: jump if rI5 is positive (R384). -/
def execJ5p (a : Address) (s : State) : Answer :=
  testJump s.rI5.val .p a s

/-- J5NN: jump if rI5 is non-negative (R385). -/
def execJ5nn (a : Address) (s : State) : Answer :=
  testJump s.rI5.val .nn a s

/-- J5NZ: jump if rI5 is non-zero (R386). -/
def execJ5nz (a : Address) (s : State) : Answer :=
  testJump s.rI5.val .nz a s

/-- J5NP: jump if rI5 is non-positive (R387). -/
def execJ5np (a : Address) (s : State) : Answer :=
  testJump s.rI5.val .np a s

/-- J6N: jump if rI6 is negative (R388). -/
def execJ6n (a : Address) (s : State) : Answer :=
  testJump s.rI6.val .n a s

/-- J6Z: jump if rI6 is zero (R389). -/
def execJ6z (a : Address) (s : State) : Answer :=
  testJump s.rI6.val .z a s

/-- J6P: jump if rI6 is positive (R390). -/
def execJ6p (a : Address) (s : State) : Answer :=
  testJump s.rI6.val .p a s

/-- J6NN: jump if rI6 is non-negative (R391). -/
def execJ6nn (a : Address) (s : State) : Answer :=
  testJump s.rI6.val .nn a s

/-- J6NZ: jump if rI6 is non-zero (R392). -/
def execJ6nz (a : Address) (s : State) : Answer :=
  testJump s.rI6.val .nz a s

/-- J6NP: jump if rI6 is non-positive (R393). -/
def execJ6np (a : Address) (s : State) : Answer :=
  testJump s.rI6.val .np a s

/-- JXN: jump if rX is negative (R394). -/
def execJxn (a : Address) (s : State) : Answer :=
  testJump s.rX.val .n a s

/-- JXZ: jump if rX is zero (R395). -/
def execJxz (a : Address) (s : State) : Answer :=
  testJump s.rX.val .z a s

/-- JXP: jump if rX is positive (R396). -/
def execJxp (a : Address) (s : State) : Answer :=
  testJump s.rX.val .p a s

/-- JXNN: jump if rX is non-negative (R397). -/
def execJxnn (a : Address) (s : State) : Answer :=
  testJump s.rX.val .nn a s

/-- JXNZ: jump if rX is non-zero (R398). -/
def execJxnz (a : Address) (s : State) : Answer :=
  testJump s.rX.val .nz a s

/-- JXNP: jump if rX is non-positive (R399). -/
def execJxnp (a : Address) (s : State) : Answer :=
  testJump s.rX.val .np a s

end Sys2Proof.Machine
end

