-- ==== Sys2Proof/Machine/Store.lean ====
section
/-! DEFINITION. The stores, opcodes 24–33 (spec 41_store.md). -/

namespace Sys2Proof.Machine

/-- A store: the low bytes of `src` into the field of the word at M (R230). -/
def store (src : Word) (a : Address) (f : Field) (s : State) : Answer :=
  withOperand a s fun old =>
    complete (s.setMem (s.mem.write (effective a s).toNat (insertField old f src)))

/-- STA: store rA (R232). -/
def execSta (a : Address) (f : Field) (s : State) : Answer :=
  store s.rA a f s

/-- ST1: store rI1, bytes 1–3 zero (R233). -/
def execSt1 (a : Address) (f : Field) (s : State) : Answer :=
  store s.rI1.word a f s

/-- ST2: store rI2, bytes 1–3 zero (R234). -/
def execSt2 (a : Address) (f : Field) (s : State) : Answer :=
  store s.rI2.word a f s

/-- ST3: store rI3, bytes 1–3 zero (R235). -/
def execSt3 (a : Address) (f : Field) (s : State) : Answer :=
  store s.rI3.word a f s

/-- ST4: store rI4, bytes 1–3 zero (R236). -/
def execSt4 (a : Address) (f : Field) (s : State) : Answer :=
  store s.rI4.word a f s

/-- ST5: store rI5, bytes 1–3 zero (R237). -/
def execSt5 (a : Address) (f : Field) (s : State) : Answer :=
  store s.rI5.word a f s

/-- ST6: store rI6, bytes 1–3 zero (R238). -/
def execSt6 (a : Address) (f : Field) (s : State) : Answer :=
  store s.rI6.word a f s

/-- STX: store rX (R239). -/
def execStx (a : Address) (f : Field) (s : State) : Answer :=
  store s.rX a f s

/-- STJ: store rJ, sign plus (R240). -/
def execStj (a : Address) (f : Field) (s : State) : Answer :=
  store (jumpWord s.rJ) a f s

/-- STZ: store +0 (R241). -/
def execStz (a : Address) (f : Field) (s : State) : Answer :=
  store Word.zero a f s

end Sys2Proof.Machine
end

