-- ==== Sys2Proof/Machine/Dispatch.lean ====
section
/-! DEFINITION. The dispatch: one arm per instruction (spec 30_encoding.md R150). -/

namespace Sys2Proof.Machine

/-- What an instruction does to the state. -/
def exec (i : Instr) (s : State) : Host.Outcome State Fault Refusal :=
  match i with
  | .nop a f => Sys2Proof.Machine.execNop a f s
  | .add a f => Sys2Proof.Machine.execAdd a f s
  | .sub a f => Sys2Proof.Machine.execSub a f s
  | .mul a f => Sys2Proof.Machine.execMul a f s
  | .div a f => Sys2Proof.Machine.execDiv a f s
  | .num a => Sys2Proof.Machine.execNum a s
  | .char a => Sys2Proof.Machine.execChar a s
  | .hlt a => Sys2Proof.Machine.execHlt a s
  | .sla a => Sys2Proof.Machine.execSla a s
  | .sra a => Sys2Proof.Machine.execSra a s
  | .slax a => Sys2Proof.Machine.execSlax a s
  | .srax a => Sys2Proof.Machine.execSrax a s
  | .slc a => Sys2Proof.Machine.execSlc a s
  | .src a => Sys2Proof.Machine.execSrc a s
  | .move a n => Sys2Proof.Machine.execMove a n s
  | .lda a f => Sys2Proof.Machine.execLda a f s
  | .ld1 a f => Sys2Proof.Machine.execLd1 a f s
  | .ld2 a f => Sys2Proof.Machine.execLd2 a f s
  | .ld3 a f => Sys2Proof.Machine.execLd3 a f s
  | .ld4 a f => Sys2Proof.Machine.execLd4 a f s
  | .ld5 a f => Sys2Proof.Machine.execLd5 a f s
  | .ld6 a f => Sys2Proof.Machine.execLd6 a f s
  | .ldx a f => Sys2Proof.Machine.execLdx a f s
  | .ldan a f => Sys2Proof.Machine.execLdan a f s
  | .ld1n a f => Sys2Proof.Machine.execLd1n a f s
  | .ld2n a f => Sys2Proof.Machine.execLd2n a f s
  | .ld3n a f => Sys2Proof.Machine.execLd3n a f s
  | .ld4n a f => Sys2Proof.Machine.execLd4n a f s
  | .ld5n a f => Sys2Proof.Machine.execLd5n a f s
  | .ld6n a f => Sys2Proof.Machine.execLd6n a f s
  | .ldxn a f => Sys2Proof.Machine.execLdxn a f s
  | .sta a f => Sys2Proof.Machine.execSta a f s
  | .st1 a f => Sys2Proof.Machine.execSt1 a f s
  | .st2 a f => Sys2Proof.Machine.execSt2 a f s
  | .st3 a f => Sys2Proof.Machine.execSt3 a f s
  | .st4 a f => Sys2Proof.Machine.execSt4 a f s
  | .st5 a f => Sys2Proof.Machine.execSt5 a f s
  | .st6 a f => Sys2Proof.Machine.execSt6 a f s
  | .stx a f => Sys2Proof.Machine.execStx a f s
  | .stj a f => Sys2Proof.Machine.execStj a f s
  | .stz a f => Sys2Proof.Machine.execStz a f s
  | .jbus a u => Sys2Proof.Machine.execJbus a u s
  | .ioc a u => Sys2Proof.Machine.execIoc a u s
  | .inp a u => Sys2Proof.Machine.execInp a u s
  | .out a u => Sys2Proof.Machine.execOut a u s
  | .jred a u => Sys2Proof.Machine.execJred a u s
  | .jmp a => Sys2Proof.Machine.execJmp a s
  | .jsj a => Sys2Proof.Machine.execJsj a s
  | .jov a => Sys2Proof.Machine.execJov a s
  | .jnov a => Sys2Proof.Machine.execJnov a s
  | .jl a => Sys2Proof.Machine.execJl a s
  | .je a => Sys2Proof.Machine.execJe a s
  | .jg a => Sys2Proof.Machine.execJg a s
  | .jge a => Sys2Proof.Machine.execJge a s
  | .jne a => Sys2Proof.Machine.execJne a s
  | .jle a => Sys2Proof.Machine.execJle a s
  | .jan a => Sys2Proof.Machine.execJan a s
  | .jaz a => Sys2Proof.Machine.execJaz a s
  | .jap a => Sys2Proof.Machine.execJap a s
  | .jann a => Sys2Proof.Machine.execJann a s
  | .janz a => Sys2Proof.Machine.execJanz a s
  | .janp a => Sys2Proof.Machine.execJanp a s
  | .j1n a => Sys2Proof.Machine.execJ1n a s
  | .j1z a => Sys2Proof.Machine.execJ1z a s
  | .j1p a => Sys2Proof.Machine.execJ1p a s
  | .j1nn a => Sys2Proof.Machine.execJ1nn a s
  | .j1nz a => Sys2Proof.Machine.execJ1nz a s
  | .j1np a => Sys2Proof.Machine.execJ1np a s
  | .j2n a => Sys2Proof.Machine.execJ2n a s
  | .j2z a => Sys2Proof.Machine.execJ2z a s
  | .j2p a => Sys2Proof.Machine.execJ2p a s
  | .j2nn a => Sys2Proof.Machine.execJ2nn a s
  | .j2nz a => Sys2Proof.Machine.execJ2nz a s
  | .j2np a => Sys2Proof.Machine.execJ2np a s
  | .j3n a => Sys2Proof.Machine.execJ3n a s
  | .j3z a => Sys2Proof.Machine.execJ3z a s
  | .j3p a => Sys2Proof.Machine.execJ3p a s
  | .j3nn a => Sys2Proof.Machine.execJ3nn a s
  | .j3nz a => Sys2Proof.Machine.execJ3nz a s
  | .j3np a => Sys2Proof.Machine.execJ3np a s
  | .j4n a => Sys2Proof.Machine.execJ4n a s
  | .j4z a => Sys2Proof.Machine.execJ4z a s
  | .j4p a => Sys2Proof.Machine.execJ4p a s
  | .j4nn a => Sys2Proof.Machine.execJ4nn a s
  | .j4nz a => Sys2Proof.Machine.execJ4nz a s
  | .j4np a => Sys2Proof.Machine.execJ4np a s
  | .j5n a => Sys2Proof.Machine.execJ5n a s
  | .j5z a => Sys2Proof.Machine.execJ5z a s
  | .j5p a => Sys2Proof.Machine.execJ5p a s
  | .j5nn a => Sys2Proof.Machine.execJ5nn a s
  | .j5nz a => Sys2Proof.Machine.execJ5nz a s
  | .j5np a => Sys2Proof.Machine.execJ5np a s
  | .j6n a => Sys2Proof.Machine.execJ6n a s
  | .j6z a => Sys2Proof.Machine.execJ6z a s
  | .j6p a => Sys2Proof.Machine.execJ6p a s
  | .j6nn a => Sys2Proof.Machine.execJ6nn a s
  | .j6nz a => Sys2Proof.Machine.execJ6nz a s
  | .j6np a => Sys2Proof.Machine.execJ6np a s
  | .jxn a => Sys2Proof.Machine.execJxn a s
  | .jxz a => Sys2Proof.Machine.execJxz a s
  | .jxp a => Sys2Proof.Machine.execJxp a s
  | .jxnn a => Sys2Proof.Machine.execJxnn a s
  | .jxnz a => Sys2Proof.Machine.execJxnz a s
  | .jxnp a => Sys2Proof.Machine.execJxnp a s
  | .inca a => Sys2Proof.Machine.execInca a s
  | .deca a => Sys2Proof.Machine.execDeca a s
  | .enta a => Sys2Proof.Machine.execEnta a s
  | .enna a => Sys2Proof.Machine.execEnna a s
  | .inc1 a => Sys2Proof.Machine.execInc1 a s
  | .dec1 a => Sys2Proof.Machine.execDec1 a s
  | .ent1 a => Sys2Proof.Machine.execEnt1 a s
  | .enn1 a => Sys2Proof.Machine.execEnn1 a s
  | .inc2 a => Sys2Proof.Machine.execInc2 a s
  | .dec2 a => Sys2Proof.Machine.execDec2 a s
  | .ent2 a => Sys2Proof.Machine.execEnt2 a s
  | .enn2 a => Sys2Proof.Machine.execEnn2 a s
  | .inc3 a => Sys2Proof.Machine.execInc3 a s
  | .dec3 a => Sys2Proof.Machine.execDec3 a s
  | .ent3 a => Sys2Proof.Machine.execEnt3 a s
  | .enn3 a => Sys2Proof.Machine.execEnn3 a s
  | .inc4 a => Sys2Proof.Machine.execInc4 a s
  | .dec4 a => Sys2Proof.Machine.execDec4 a s
  | .ent4 a => Sys2Proof.Machine.execEnt4 a s
  | .enn4 a => Sys2Proof.Machine.execEnn4 a s
  | .inc5 a => Sys2Proof.Machine.execInc5 a s
  | .dec5 a => Sys2Proof.Machine.execDec5 a s
  | .ent5 a => Sys2Proof.Machine.execEnt5 a s
  | .enn5 a => Sys2Proof.Machine.execEnn5 a s
  | .inc6 a => Sys2Proof.Machine.execInc6 a s
  | .dec6 a => Sys2Proof.Machine.execDec6 a s
  | .ent6 a => Sys2Proof.Machine.execEnt6 a s
  | .enn6 a => Sys2Proof.Machine.execEnn6 a s
  | .incx a => Sys2Proof.Machine.execIncx a s
  | .decx a => Sys2Proof.Machine.execDecx a s
  | .entx a => Sys2Proof.Machine.execEntx a s
  | .ennx a => Sys2Proof.Machine.execEnnx a s
  | .cmpa a f => Sys2Proof.Machine.execCmpa a f s
  | .cmp1 a f => Sys2Proof.Machine.execCmp1 a f s
  | .cmp2 a f => Sys2Proof.Machine.execCmp2 a f s
  | .cmp3 a f => Sys2Proof.Machine.execCmp3 a f s
  | .cmp4 a f => Sys2Proof.Machine.execCmp4 a f s
  | .cmp5 a f => Sys2Proof.Machine.execCmp5 a f s
  | .cmp6 a f => Sys2Proof.Machine.execCmp6 a f s
  | .cmpx a f => Sys2Proof.Machine.execCmpx a f s

end Sys2Proof.Machine
end

