-- ==== Sys2Proof/Machine/Cycle.lean ====
section
/-! DEFINITION. What a running block does in one step: fetch, decode, execute (spec 10_state.md R68,
30_encoding.md R160, 60_exceptions.md R510). -/

namespace Sys2Proof.Machine

/-- Decode a fetched word and do what it decodes to (R160). -/
def runWord (w : Word) (s : State) : Answer :=
  match decode s.params w with
  | .illegalInstruction => raise (.illegalInstruction w) s
  | .fieldError f => fieldError f s
  | .refused c f => refuse c f s
  | .instr i => exec i s

/-- Fetch at pc, and run the fetched word; a pc outside memory is an AddressFault (R68, R52). -/
def cycle (s : State) : Answer :=
  match fetch s with
  | none => raise (.addressFault (s.pc.toNat : Int)) s
  | some w => runWord w s

/-- `s` with the word of the given bits stored at pc; `s` itself where they are no 31-bit word. -/
def placeWord (s : State) (nbits w : Nat) : State :=
  match tableWord nbits w with
  | some v => s.setMem (s.mem.write s.pc.toNat v)
  | none => s

end Sys2Proof.Machine
end

