-- ==== Sys2Proof/Machine/Step.lean ====
section
/-! DEFINITION. One step of the block (spec 10_state.md R56, R68). -/

namespace Sys2Proof.Machine

/-- One step: a running block fetches, decodes and executes; no step is taken once the run has ended
(R56). -/
def step (s : State) : Host.Outcome State Fault Refusal :=
  match s.runState with
  | .running => cycle s
  | .halted => .fault .runEnded
  | .faulted _ _ => .fault .runEnded
  | .refused _ _ _ => .fault .runEnded

/-- `s` with the instruction word of the given bits stored where the next step fetches it.  It stands for
the host's launch of an image that holds the word (log entry 10). -/
def State.withFetchWord (s : State) (nbits w : Nat) : State := placeWord s nbits w

end Sys2Proof.Machine
end

