-- ==== Sys2Proof/Machine/Launch.lean ====
section
/-! DEFINITION. The launch: the host's checks, then the state a run starts from (spec
70_reset_and_hazards.md R550–R553, 60_exceptions.md R519). -/

namespace Sys2Proof.Machine

/-- The host's register file, INIT_REGS (R550, R551).  Its types hold exactly the legal values of R552. -/
structure InitRegs where
  rA : Word
  rX : Word
  rI1 : IndexWord
  rI2 : IndexWord
  rI3 : IndexWord
  rI4 : IndexWord
  rI5 : IndexWord
  rI6 : IndexWord
  rJ : BitVec 12
  ov : Bool
  ci : Comparison
  deriving DecidableEq, Repr

/-- The default launch state's register file (R550). -/
def InitRegs.default : InitRegs where
  rA  := Word.zero
  rX  := Word.zero
  rI1 := ⟨.plus, 0⟩
  rI2 := ⟨.plus, 0⟩
  rI3 := ⟨.plus, 0⟩
  rI4 := ⟨.plus, 0⟩
  rI5 := ⟨.plus, 0⟩
  rI6 := ⟨.plus, 0⟩
  rJ  := 0
  ov  := false
  ci  := .equal

/-- The memory of an image whose first number is at address `a` (R551, R553). -/
def imageMemory (a : Nat) : List Nat → Memory
  | [] => []
  | n :: rest =>
    if unpackWord (BitVec.ofNat 31 n) = Word.zero then imageMemory (a + 1) rest
    else (a, unpackWord (BitVec.ofNat 31 n)) :: imageMemory (a + 1) rest

/-- The launch's preconditions: legal parameters, an image of at most MEM_SIZE words, each below 2^31,
and 0 ≤ START < MEM_SIZE (R552). -/
def launchLegal (p : Params) (image : List Nat) (start : Nat) : Bool :=
  p.legal && decide (image.length ≤ p.memSize) && image.all (fun n => decide (n < 2 ^ 31)) &&
    decide (start < p.memSize)

/-- A launch: `none` where a precondition fails and no run exists.  A word the image does not set is +0;
`oracle` is what the host has ready for the device calls (R551, R552; log entry 24). -/
def launch (p : Params) (init : InitRegs) (image : List Nat) (start : Nat) (oracle : List DeviceAnswer) :
    Option State :=
  if launchLegal p image start then
    some
      { rA := init.rA, rX := init.rX, rI1 := init.rI1, rI2 := init.rI2, rI3 := init.rI3, rI4 := init.rI4,
        rI5 := init.rI5, rI6 := init.rI6, rJ := init.rJ, ov := init.ov, ci := init.ci,
        pc := BitVec.ofNat 13 start, runState := .running, log := [], mem := imageMemory 0 image,
        params := p, oracle := oracle, calls := 0, draws := 0 }
  else none

end Sys2Proof.Machine
end

