-- ==== Sys2Proof/Safety.lean ====
section
/-! DEFINITION. What counts as a safe run, and the invariant of the block, in the terms claims use (spec
60_exceptions.md R500–R520). -/

namespace Sys2Proof.Machine

/-- A report the diagnostics log may hold under the parameters: a FieldError where the policy skips it, an
IndexAnomaly, of a magnitude ≥ 4096, where the policy records it (R58, R502, R505). -/
def Event.recordable (p : Params) : Event → Bool
  | .fieldError _ => p.fieldError == .skip
  | .indexAnomaly _ v => p.indexAnomaly == .record && decide (4096 ≤ v.natAbs)
  | .illegalInstruction _ => false
  | .addressFault _ => false
  | .operandFault _ => false
  | .deviceFault _ => false

/-- A report that can end a run under the parameters, with an info its rule allows (R500–R506). -/
def Event.fatal (p : Params) : Event → Bool
  | .illegalInstruction w => decide (decode p w = .illegalInstruction)
  | .fieldError _ => p.fieldError == .stop
  | .addressFault a => decide (a < 0) || decide ((p.memSize : Int) ≤ a)
  | .operandFault v => decide (v < 0)
  | .indexAnomaly _ v => p.indexAnomaly == .stop && decide (4096 ≤ v.natAbs)
  | .deviceFault _ => true

/-- The run state tells the truth: a fault is a fatal one and a refusal of an operation that is not
admitted, each with the pc kept at the instruction (R53, R509, R511). -/
def State.endingTrue (s : State) : Bool :=
  match s.runState with
  | .running => true
  | .halted => true
  | .faulted e p => (p == s.pc) && e.fatal s.params
  | .refused p c _ => (p == s.pc) && !s.params.gkOpsAdmitted && gkOpcode c

/-- The invariant: legal parameters, memory in its canonical form and inside MEM_SIZE, the pc at most
MEM_SIZE, a log of recordable reports, and a truthful run state. -/
abbrev State.Inv (s : State) : Prop :=
  s.params.legal = true ∧ Memory.wf s.mem ∧ Memory.below s.mem s.params.memSize ∧
    s.pc.toNat ≤ s.params.memSize ∧ (∀ e ∈ s.log, e.event.recordable s.params = true) ∧
    s.endingTrue = true

/-- The run is at its only successful end (R520). -/
def State.endedWell (s : State) : Bool := s.runState == .halted

/-- The premises every claim about a run takes: no fatal fault, no refusal, an empty log (R520). -/
def State.clean (s : State) : Bool :=
  s.log.isEmpty &&
    match s.runState with
    | .running => true
    | .halted => true
    | .faulted _ _ => false
    | .refused _ _ _ => false

end Sys2Proof.Machine
end

