-- ==== Sys2Proof/Certificates/Slice0/Obligations.lean ====
section
/-! DEFINITION. The statements for the provers, and the vocabulary they are written in: the spec's rules in
plain arithmetic on values, magnitudes and bytes. -/

namespace Sys2Proof.Claims

open Sys2Proof.Machine

/-- An address is in [0, MEM_SIZE−1]. -/
abbrev Inside (s : State) (a : Int) : Prop := 0 ≤ a ∧ a < (s.params.memSize : Int)

/-- The state with the run ended by a fatal fault at this instruction. -/
def faultedWith (s : State) (e : Event) : State := { s with runState := .faulted e s.pc }

/-- The return address, (pc + 1) mod 4096. -/
def returnAddress (s : State) : BitVec 12 := BitVec.ofNat 12 ((s.pc.toNat + 1) % 4096)

/-- The number of bytes of a field; 0 for (0:0). -/
def byteCount (f : Field) : Nat := f.r.toNat + 1 - max f.l.toNat 1

/-- The sign of a field of a word: the word's where L = 0, else plus. -/
def fieldSign (w : Word) (f : Field) : Sign := if f.l.toNat = 0 then w.sign else .plus

/-- The magnitude of a field: bytes max(L,1)..R of the word as one number. -/
def fieldMag (w : Word) (f : Field) : Nat := w.mag.toNat / 64 ^ (5 - f.r.toNat) % 64 ^ byteCount f

/-- The field as a right-justified word. -/
def fieldWord (w : Word) (f : Field) : Word := ⟨fieldSign w f, BitVec.ofNat 30 (fieldMag w f)⟩

/-- The value of a field. -/
def fieldVal (w : Word) (f : Field) : Int := (fieldSign w f).apply (fieldMag w f)

/-- Byte i of the ten bytes of rA:rX, 1 ≤ i ≤ 10. -/
def byteAX (s : State) (i : Nat) : Byte := if i ≤ 5 then wordByte s.rA i else wordByte s.rX (i - 5)

/-- An index register as a word, bytes 1–3 zero. -/
def indexWord (r : IndexWord) : Word := ⟨r.sign, BitVec.ofNat 30 r.mag.toNat⟩

/-- LDi. -/
def ldIndex : IndexReg → Address → Field → Instr
  | .r1 => .ld1
  | .r2 => .ld2
  | .r3 => .ld3
  | .r4 => .ld4
  | .r5 => .ld5
  | .r6 => .ld6

/-- LDiN. -/
def ldIndexN : IndexReg → Address → Field → Instr
  | .r1 => .ld1n
  | .r2 => .ld2n
  | .r3 => .ld3n
  | .r4 => .ld4n
  | .r5 => .ld5n
  | .r6 => .ld6n

/-- INCi. -/
def incIndex : IndexReg → Address → Instr
  | .r1 => .inc1
  | .r2 => .inc2
  | .r3 => .inc3
  | .r4 => .inc4
  | .r5 => .inc5
  | .r6 => .inc6

/-- DECi. -/
def decIndex : IndexReg → Address → Instr
  | .r1 => .dec1
  | .r2 => .dec2
  | .r3 => .dec3
  | .r4 => .dec4
  | .r5 => .dec5
  | .r6 => .dec6

/-- ENTi. -/
def entIndex : IndexReg → Address → Instr
  | .r1 => .ent1
  | .r2 => .ent2
  | .r3 => .ent3
  | .r4 => .ent4
  | .r5 => .ent5
  | .r6 => .ent6

/-- ENNi. -/
def ennIndex : IndexReg → Address → Instr
  | .r1 => .enn1
  | .r2 => .enn2
  | .r3 => .enn3
  | .r4 => .enn4
  | .r5 => .enn5
  | .r6 => .enn6

/-- The write of a value to rIk at the end of an instruction that changes nothing else: a magnitude below
4096 is stored; from 4096 on it is an IndexAnomaly, recorded with the low 12 bits kept, or fatal. -/
def IndexWrite (k : IndexReg) (sg : Sign) (v : Int) (s : State) (i : Instr) : Prop :=
  (v.natAbs < 4096 →
    exec i s = .next { s.setIndex k ⟨sg, BitVec.ofNat 12 v.natAbs⟩ with pc := s.pc + 1 }) ∧
  (4096 ≤ v.natAbs → s.params.indexAnomaly = .record →
    exec i s = .next { s.setIndex k ⟨sg, BitVec.ofNat 12 (v.natAbs % 4096)⟩ with
      pc := s.pc + 1, log := s.log ++ [⟨.indexAnomaly k v, s.pc⟩] }) ∧
  (4096 ≤ v.natAbs → s.params.indexAnomaly = .stop →
    exec i s = .next (faultedWith s (.indexAnomaly k v)))

/-- The ten stores with their source words (R231). -/
def storeTable (s : State) : List ((Address → Field → Instr) × Word) :=
  [(.sta, s.rA), (.st1, indexWord s.rI1), (.st2, indexWord s.rI2), (.st3, indexWord s.rI3),
   (.st4, indexWord s.rI4), (.st5, indexWord s.rI5), (.st6, indexWord s.rI6), (.stx, s.rX),
   (.stj, ⟨.plus, BitVec.ofNat 30 s.rJ.toNat⟩), (.stz, ⟨.plus, 0⟩)]

/-- The eight compares with the register each compares (R301). -/
def compareTable (s : State) : List ((Address → Field → Instr) × Word) :=
  [(.cmpa, s.rA), (.cmp1, indexWord s.rI1), (.cmp2, indexWord s.rI2), (.cmp3, indexWord s.rI3),
   (.cmp4, indexWord s.rI4), (.cmp5, indexWord s.rI5), (.cmp6, indexWord s.rI6), (.cmpx, s.rX)]

/-- A row of the condition table of opcode 39: the jump, its condition, whether it writes rJ, and the OV it
leaves. -/
structure JumpRow where
  instr   : Address → Instr
  taken   : Bool
  writesJ : Bool
  ov      : Bool

/-- The condition table of opcode 39 (R322). -/
def jumpTable (s : State) : List JumpRow :=
  [⟨.jmp, true, true, s.ov⟩, ⟨.jsj, true, false, s.ov⟩, ⟨.jov, s.ov, true, false⟩,
   ⟨.jnov, !s.ov, true, false⟩, ⟨.jl, s.ci == .less, true, s.ov⟩, ⟨.je, s.ci == .equal, true, s.ov⟩,
   ⟨.jg, s.ci == .greater, true, s.ov⟩, ⟨.jge, s.ci != .less, true, s.ov⟩,
   ⟨.jne, s.ci != .equal, true, s.ov⟩, ⟨.jle, s.ci != .greater, true, s.ov⟩]

/-- The register-test jumps of one register: the instructions for N, Z, P, NN, NZ, NP with their
conditions on the register's value (R350). -/
def testRows (v : Int) (is : List (Address → Instr)) : List ((Address → Instr) × Bool) :=
  is.zip [decide (v < 0), decide (v = 0), decide (0 < v), decide (0 ≤ v), decide (v ≠ 0), decide (v ≤ 0)]

/-- The 48 register-test jumps with their conditions. -/
def testTable (s : State) : List ((Address → Instr) × Bool) :=
  testRows s.rA.val [.jan, .jaz, .jap, .jann, .janz, .janp] ++
  testRows s.rI1.val [.j1n, .j1z, .j1p, .j1nn, .j1nz, .j1np] ++
  testRows s.rI2.val [.j2n, .j2z, .j2p, .j2nn, .j2nz, .j2np] ++
  testRows s.rI3.val [.j3n, .j3z, .j3p, .j3nn, .j3nz, .j3np] ++
  testRows s.rI4.val [.j4n, .j4z, .j4p, .j4nn, .j4nz, .j4np] ++
  testRows s.rI5.val [.j5n, .j5z, .j5p, .j5nn, .j5nz, .j5np] ++
  testRows s.rI6.val [.j6n, .j6z, .j6p, .j6nn, .j6nz, .j6np] ++
  testRows s.rX.val [.jxn, .jxz, .jxp, .jxnn, .jxnz, .jxnp]

/-- rJ after a jump that records: always under the default policy, only when taken under the other
(R321). -/
def recordedJ (s : State) (taken : Bool) : BitVec 12 :=
  if s.params.jWrite = .always ∨ taken = true then returnAddress s else s.rJ

/-- The jump step of R320 for an instruction with a given condition, the rJ it leaves and the state
`after` the variant's other effects: taken with its target in memory, not taken, or taken with its
target outside memory. -/
def JumpStep (i : Instr) (a : Address) (taken : Bool) (j : BitVec 12) (after s : State) : Prop :=
  (taken = true → Inside s (effective a s) →
    exec i s = .next { after with rJ := j, pc := BitVec.ofNat 13 (effective a s).toNat }) ∧
  (taken = false → exec i s = .next { after with rJ := j, pc := s.pc + 1 }) ∧
  (taken = true → ¬ Inside s (effective a s) →
    exec i s = .next (faultedWith s (.addressFault (effective a s))))

/-- The sum law of ADD, SUB, INC and DEC on rA and rX: the exact sum `t`; zero keeps the register's sign;
otherwise the sign of `t` and its magnitude mod 64^5 (R250). -/
def sumWord (r : Word) (t : Int) : Word :=
  if t = 0 then ⟨r.sign, 0⟩
  else ⟨if 0 < t then .plus else .minus, BitVec.ofNat 30 (t.natAbs % 64 ^ 5)⟩

/-- OV after a sum: set where the magnitude needs more than five bytes, else as it was. -/
def sumOv (s : State) (t : Int) : Bool := s.ov || decide (64 ^ 5 ≤ t.natAbs)

/-- The sign of the effective address: that of its value, and of the address field where it is 0. -/
def signOfM (a : Address) (s : State) : Sign :=
  if 0 < effective a s then .plus else if effective a s < 0 then .minus else a.sign

/-- The sign ENN enters (R423). -/
def signOfENN (a : Address) (s : State) : Sign :=
  if s.params.enn = .forceNegative then .minus
  else if signOfM a s = .plus then .minus else .plus

/-- The six shifts. -/
def shifts : List (Address → Instr) := [.sla, .sra, .slax, .srax, .slc, .src]

/-- The address part of an instruction that reads or writes the one memory word at M (R92). -/
def memoryOperand : Instr → Option Address
  | .add a _ | .sub a _ | .mul a _ | .div a _ => some a
  | .lda a _ | .ld1 a _ | .ld2 a _ | .ld3 a _ | .ld4 a _ | .ld5 a _ | .ld6 a _ | .ldx a _ => some a
  | .ldan a _ | .ld1n a _ | .ld2n a _ | .ld3n a _ | .ld4n a _ | .ld5n a _ | .ld6n a _ | .ldxn a _ => some a
  | .sta a _ | .st1 a _ | .st2 a _ | .st3 a _ | .st4 a _ | .st5 a _ | .st6 a _ | .stx a _ => some a
  | .stj a _ | .stz a _ => some a
  | .cmpa a _ | .cmp1 a _ | .cmp2 a _ | .cmp3 a _ | .cmp4 a _ | .cmp5 a _ | .cmp6 a _ | .cmpx a _ => some a
  | _ => none

/-- The stores, with the address part that names the word they write. -/
def storeAddress : Instr → Option Address
  | .sta a _ | .st1 a _ | .st2 a _ | .st3 a _ | .st4 a _ | .st5 a _ | .st6 a _ | .stx a _ => some a
  | .stj a _ | .stz a _ => some a
  | _ => none

/-- The instructions that may write rA (R40). -/
def writesA : Instr → Bool
  | .lda _ _ | .ldan _ _ | .add _ _ | .sub _ _ | .mul _ _ | .div _ _ | .num _ | .char _ => true
  | .sla _ | .sra _ | .slax _ | .srax _ | .slc _ | .src _ | .inca _ | .deca _ | .enta _ | .enna _ => true
  | _ => false

/-- The instructions that may write rX (R40). -/
def writesX : Instr → Bool
  | .ldx _ _ | .ldxn _ _ | .mul _ _ | .div _ _ | .char _ => true
  | .slax _ | .srax _ | .slc _ | .src _ | .incx _ | .decx _ | .entx _ | .ennx _ => true
  | _ => false

/-- The instructions that may write rIk (R40). -/
def writesIndex : Instr → IndexReg → Bool
  | .ld1 _ _, k | .ld1n _ _, k | .inc1 _, k | .dec1 _, k | .ent1 _, k | .enn1 _, k => k == .r1
  | .move _ _, k => k == .r1
  | .ld2 _ _, k | .ld2n _ _, k | .inc2 _, k | .dec2 _, k | .ent2 _, k | .enn2 _, k => k == .r2
  | .ld3 _ _, k | .ld3n _ _, k | .inc3 _, k | .dec3 _, k | .ent3 _, k | .enn3 _, k => k == .r3
  | .ld4 _ _, k | .ld4n _ _, k | .inc4 _, k | .dec4 _, k | .ent4 _, k | .enn4 _, k => k == .r4
  | .ld5 _ _, k | .ld5n _ _, k | .inc5 _, k | .dec5 _, k | .ent5 _, k | .enn5 _, k => k == .r5
  | .ld6 _ _, k | .ld6n _ _, k | .inc6 _, k | .dec6 _, k | .ent6 _, k | .enn6 _, k => k == .r6
  | _, _ => false

/-- The jumps: opcodes 34, 38, 39 and 40–47. -/
def isJump (i : Instr) : Bool :=
  let c := (encodeParts i).1.toNat
  c == 34 || (38 ≤ c && c ≤ 47)

/-- The I/O instructions: opcodes 34–38. -/
def isIo (i : Instr) : Bool :=
  let c := (encodeParts i).1.toNat
  34 ≤ c && c ≤ 38

/-- The jumps that write rJ: every one but JSJ. -/
def writesJ : Instr → Bool
  | .jsj _ => false
  | i => isJump i

/-- The instructions that may set OV: ADD, SUB, DIV and INC, DEC of rA and rX; SLA and SLAX where the
parameter SHIFT_SETS_OVERFLOW holds (R40, R48, R282). -/
def setsOv (p : Params) : Instr → Bool
  | .add _ _ | .sub _ _ | .div _ _ | .inca _ | .deca _ | .incx _ | .decx _ => true
  | .sla _ | .slax _ => p.shiftSetsOverflow
  | _ => false

/-- The instructions that clear OV. -/
def clearsOv : Instr → Bool
  | .jov _ | .jnov _ => true
  | _ => false

/-- The instructions that write CI. -/
def writesCi : Instr → Bool
  | .cmpa _ _ | .cmp1 _ _ | .cmp2 _ _ | .cmp3 _ _ | .cmp4 _ _ | .cmp5 _ _ | .cmp6 _ _ | .cmpx _ _ => true
  | _ => false

/-- F is legal for opcode C's F role (R145, the table of R150). -/
abbrev legalF (p : Params) (c f : Nat) : Prop :=
  if c = 5 then f ≤ 2
  else if c = 6 then f ≤ 5
  else if c = 7 then True
  else if 34 ≤ c ∧ c ≤ 38 then BitVec.ofNat 6 f ∈ p.ioUnits
  else if c = 39 then f ≤ 9
  else if 40 ≤ c ∧ c ≤ 47 then f ≤ 5
  else if 48 ≤ c ∧ c ≤ 55 then f ≤ 3
  else f % 8 ≤ 5 ∧ f / 8 ≤ f % 8

/-- An operation the source does not describe, by opcode (R146). -/
abbrev gkOperation (c : Nat) : Prop :=
  c = 0 ∨ c = 7 ∨ c = 32 ∨ c = 33 ∨ (34 ≤ c ∧ c ≤ 38) ∨ (40 ≤ c ∧ c ≤ 47)

/-- The number the ten digits of rA:rX make, the digit of a byte being its value mod 10 (R470). -/
def tenDigits (s : State) : Nat :=
  let d := fun i => (byteAX s i).toNat % 10
  d 1 * 1000000000 + d 2 * 100000000 + d 3 * 10000000 + d 4 * 1000000 + d 5 * 100000 +
    d 6 * 10000 + d 7 * 1000 + d 8 * 100 + d 9 * 10 + d 10

/-- The word the device oracle's image holds at an address, where it lists one (the last listed). -/
def imageWord (cells : List (Nat × Word)) (x : Nat) : Option Word :=
  (cells.reverse.find? fun c => c.1 == x).map (·.2)

end Sys2Proof.Claims

open Sys2Proof Sys2Proof.Machine Sys2Proof.Claims

/-! ### Encoding and decode -/

/-- R61, R137: the codecs are mutual inverses, and place the fields and bytes at the spec's bits. -/
def Obligations.CodecsAreInverseAndPlaceTheBits : Prop :=
  (∀ v : BitVec 31, packWord (unpackWord v) = v) ∧
  (∀ w : Word, unpackWord (packWord w) = w) ∧
  (∀ x : Cell, unpackInstr (packInstr x) = x) ∧
  (∀ w : Word, packInstr (unpackInstr w) = w) ∧
  (∀ w : Word, (packWord w).toNat = (if w.sign = .minus then 2 ^ 30 else 0) +
    (wordByte w 1).toNat * 64 ^ 4 + (wordByte w 2).toNat * 64 ^ 3 + (wordByte w 3).toNat * 64 ^ 2 +
    (wordByte w 4).toNat * 64 + (wordByte w 5).toNat) ∧
  (∀ x : Cell, (packWord (packInstr x)).toNat = (if x.as = .minus then 2 ^ 30 else 0) +
    x.am.toNat * 2 ^ 18 + x.i.toNat * 2 ^ 12 + x.f.toNat * 2 ^ 6 + x.c.toNat)

/-- R137, R150: every instruction whose F is legal, whose opcode the build has and which is admitted is
decoded from its own word, with every operand kept. -/
def Obligations.DecodeOfEncodeIsTheInstruction : Prop :=
  ∀ (p : Params) (i : Instr), i.wf p = true → (encodeParts i).1.toNat ≤ p.maxOpcode.toNat →
    (p.gkOpsAdmitted = true ∨ gkOpcode (encodeParts i).1 = false) →
    decode p (encode i) = .instr i

/-- R130, R160: a word that decodes to an instruction is that instruction's own word, so no two words
decode to one instruction; and the instruction is well formed. -/
def Obligations.EncodeOfDecodeIsTheWord : Prop :=
  ∀ (p : Params) (w : Word) (i : Instr), decode p w = .instr i → encode i = w ∧ i.wf p = true

/-- Words of the spec (95_test_vectors.md 1.1, 2.1; examples of the instruction rules) decode to the
instructions they stand for, and the illegal ones are rejected by name. -/
def Obligations.SpecWordsDecode : Prop :=
  decodeTableWord 31 524296904 = some (.lda ⟨.plus, 2000, some .r2⟩ ⟨1, 3⟩) ∧
  decodeTableWord 31 1598046536 = some (.lda ⟨.minus, 2000, some .r4⟩ ⟨0, 5⟩) ∧
  decodeTableWord 31 262144160 = some (.stj ⟨.plus, 1000, none⟩ ⟨0, 2⟩) ∧
  decodeTableWord 31 262144324 = some (.div ⟨.plus, 1000, none⟩ ⟨0, 5⟩) ∧
  decodeTableWord 31 1835334 = some (.src ⟨.plus, 7, none⟩) ∧
  decodeTableWord 31 1073507199 = some (.cmpx ⟨.plus, 4095, some .r6⟩ ⟨5, 5⟩) ∧
  decodeTableWord 31 1075064871 = some (.jmp ⟨.minus, 5, some .r3⟩) ∧
  decodeTableWord 31 262144367 = some (.jxnp ⟨.plus, 1000, none⟩) ∧
  decodeTableWord 31 1075052785 = some (.enn1 ⟨.minus, 5, none⟩) ∧
  decodeTableWord 31 262144199 = some (.move ⟨.plus, 1000, none⟩ 3) ∧
  decodeTableWord 31 524289060 = some (.inp ⟨.plus, 2000, none⟩ 16) ∧
  decode Params.default (unpackWord (BitVec.ofNat 31 29000)) = .illegalInstruction ∧
  decode Params.default (unpackWord (BitVec.ofNat 31 679)) = .fieldError 10

/-- R160 with R141, R145, R146 and what each outcome does, R501, R502, R509: in a running state with the pc
in memory, a step follows the first of the four outcomes that applies to the fetched word, with C, F
and I read off its magnitude. -/
def Obligations.StepFollowsTheDecodeOutcome : Prop :=
  ∀ s : State, s.runState = .running → Inside s s.pc.toNat →
    let w := s.mem.read s.pc.toNat
    let c := w.mag.toNat % 64
    let f := w.mag.toNat / 64 % 64
    let i := w.mag.toNat / 64 ^ 2 % 64
    let p := s.params
    (6 < i ∨ p.maxOpcode.toNat < c → step s = .next (faultedWith s (.illegalInstruction w))) ∧
    (¬ (6 < i ∨ p.maxOpcode.toNat < c) → ¬ legalF p c f → p.fieldError = .skip →
      step s = .next { s with log := s.log ++ [⟨.fieldError (BitVec.ofNat 6 f), s.pc⟩], pc := s.pc + 1 }) ∧
    (¬ (6 < i ∨ p.maxOpcode.toNat < c) → ¬ legalF p c f → p.fieldError = .stop →
      step s = .next (faultedWith s (.fieldError (BitVec.ofNat 6 f)))) ∧
    (¬ (6 < i ∨ p.maxOpcode.toNat < c) → legalF p c f → p.gkOpsAdmitted = false → gkOperation c →
      step s = .next { s with runState := .refused s.pc (BitVec.ofNat 6 c) (BitVec.ofNat 6 f) }) ∧
    (¬ (6 < i ∨ p.maxOpcode.toNat < c) → legalF p c f → ¬ (p.gkOpsAdmitted = false ∧ gkOperation c) →
      ∃ x : Instr, decode p w = .instr x ∧ step s = exec x s)

/-- R51, R68: when the word at pc decodes to an instruction, a step of a running block is that instruction's
meaning, and nothing more: the meaning itself leaves pc at the next instruction. -/
def Obligations.StepRunsTheDecodedInstruction : Prop :=
  ∀ (s : State) (i : Instr), s.runState = .running → Inside s s.pc.toNat →
    decode s.params (s.mem.read s.pc.toNat) = .instr i → step s = exec i s

/-- R52: a fetch at a pc outside memory is an AddressFault for the pc. -/
def Obligations.FetchOutsideMemoryFaults : Prop :=
  ∀ s : State, s.runState = .running → s.params.memSize ≤ s.pc.toNat →
    step s = .next (faultedWith s (.addressFault s.pc.toNat))

/-- R56: a step answers a next state exactly while the run state is RUNNING; from HALTED, FAULTED and
REFUSED no step is taken. -/
def Obligations.StepAnswersExactlyWhileRunning : Prop :=
  ∀ s : State, (s.runState = .running → ∃ t, step s = .next t) ∧
    (s.runState ≠ .running → step s = .fault .runEnded)

/-! ### Effective address, field engine, memory -/

/-- R142: A, plus the index register where I is not 0, not reduced; a zero M takes the sign of the address
field. -/
def Obligations.EffectiveAddressIsTheIndexedSum : Prop :=
  ∀ (a : Address) (s : State),
    (a.index = none → effective a s = if a.sign = .minus then -(a.mag.toNat : Int) else a.mag.toNat) ∧
    (∀ k, a.index = some k → effective a s =
      (if a.sign = .minus then -(a.mag.toNat : Int) else a.mag.toNat) +
      (if (s.index k).sign = .minus then -((s.index k).mag.toNat : Int) else (s.index k).mag.toNat)) ∧
    effectiveSign a s = signOfM a s ∧
    -8190 ≤ effective a s ∧ effective a s ≤ 8190

/-- R100: extract takes bytes max(L,1)..R right-justified, with the word's sign where L = 0 and plus where
L > 0; (0:0) takes the sign alone. -/
def Obligations.ExtractIsTheFieldRightJustified : Prop :=
  ∀ (w : Word) (f : Field), f.valid = true →
    (extractField w f).sign = (if f.l.toNat = 0 then w.sign else .plus) ∧
    (extractField w f).mag.toNat = fieldMag w f ∧
    (f.l.toNat = 0 → f.r.toNat = 0 → extractField w f = ⟨w.sign, 0⟩) ∧
    (∀ i, 1 ≤ i → i ≤ 5 → wordByte (extractField w f) i =
      if 5 < i + byteCount f then wordByte w (f.r.toNat + i - 5) else 0)

/-- R101: insert writes the low bytes of the source into bytes max(L,1)..R and no other, and the sign as it
stands where L = 0 and not otherwise. -/
def Obligations.InsertReplacesTheFieldBytes : Prop :=
  ∀ (d v : Word) (f : Field), f.valid = true →
    (insertField d f v).sign = (if f.l.toNat = 0 then v.sign else d.sign) ∧
    ∀ i, 1 ≤ i → i ≤ 5 → wordByte (insertField d f v) i =
      if max f.l.toNat 1 ≤ i ∧ i ≤ f.r.toNat then wordByte v (i + 5 - f.r.toNat) else wordByte d i

/-- R104: the four laws of the field engine, for every word and every valid field. -/
def Obligations.FieldEngineLaws : Prop :=
  ∀ (w v : Word) (f : Field), f.valid = true →
    insertField w f (extractField w f) = w ∧
    extractField (insertField w f v) f =
      ⟨if f.l.toNat = 0 then v.sign else .plus, BitVec.ofNat 30 (v.mag.toNat % 64 ^ byteCount f)⟩ ∧
    ((∀ i, 1 ≤ i → i ≤ 5 → ¬ (max f.l.toNat 1 ≤ i ∧ i ≤ f.r.toNat) →
        wordByte (insertField w f v) i = wordByte w i) ∧
      (f.l.toNat ≠ 0 → (insertField w f v).sign = w.sign)) ∧
    ((extractField w f).mag.toNat < 64 ^ byteCount f ∧
      ∀ i, 1 ≤ i → i + byteCount f ≤ 5 → wordByte (extractField w f) i = 0)

/-- R110: a read returns the value of the last write to its address, and of the memory before where that
write was to another address. -/
def Obligations.MemoryReadsTheLastWrite : Prop :=
  ∀ (m : Memory) (a b : Nat) (w : Word), m.wf →
    (m.write a w).read b = if b = a then w else m.read b

/-! ### Loads and stores -/

/-- R200, R201, R204, R211, R212, R219: LDA, LDX, LDAN and LDXN complete where M is in memory, and change
the register and pc alone. -/
def Obligations.LoadsOfAAndXComplete : Prop :=
  ∀ (a : Address) (f : Field) (s : State), f.valid = true → Inside s (effective a s) →
    let w := s.mem.read (effective a s).toNat
    exec (.lda a f) s = .next { s with rA := fieldWord w f, pc := s.pc + 1 } ∧
    exec (.ldx a f) s = .next { s with rX := fieldWord w f, pc := s.pc + 1 } ∧
    exec (.ldan a f) s = .next { s with
      rA := ⟨(fieldSign w f).opposite, BitVec.ofNat 30 (fieldMag w f)⟩, pc := s.pc + 1 } ∧
    exec (.ldxn a f) s = .next { s with
      rX := ⟨(fieldSign w f).opposite, BitVec.ofNat 30 (fieldMag w f)⟩, pc := s.pc + 1 }

/-- R200, R202, R205–R210, R213–R218: LD1..LD6 and LD1N..LD6N complete where M is in memory and the field's
magnitude is below 4096, and change the index register and pc alone. -/
def Obligations.LoadsOfIndexRegistersComplete : Prop :=
  ∀ (k : IndexReg) (a : Address) (f : Field) (s : State), f.valid = true → Inside s (effective a s) →
    let w := s.mem.read (effective a s).toNat
    fieldMag w f < 4096 →
    exec (ldIndex k a f) s =
      .next { s.setIndex k ⟨fieldSign w f, BitVec.ofNat 12 (fieldMag w f)⟩ with pc := s.pc + 1 } ∧
    exec (ldIndexN k a f) s =
      .next { s.setIndex k ⟨(fieldSign w f).opposite, BitVec.ofNat 12 (fieldMag w f)⟩ with pc := s.pc + 1 }

/-- R202: a load of an index register from a field of magnitude ≥ 4096 keeps the sign and the magnitude mod
4096 and is logged, or ends the run with no change, by the policy; a field of at most two bytes never
has such a magnitude. -/
def Obligations.IndexLoadsOfWideValuesAreAnomalies : Prop :=
  ∀ (k : IndexReg) (a : Address) (f : Field) (s : State), f.valid = true → Inside s (effective a s) →
    let w := s.mem.read (effective a s).toNat
    IndexWrite k (fieldSign w f) (fieldVal w f) s (ldIndex k a f) ∧
    IndexWrite k (fieldSign w f).opposite (-fieldVal w f) s (ldIndexN k a f) ∧
    (byteCount f ≤ 2 → fieldMag w f < 4096)

/-- R93, R503: every load, store, arithmetic instruction and compare whose M is outside memory is an
AddressFault for M, with no other change. -/
def Obligations.MemoryOperandOutsideMemoryFaults : Prop :=
  ∀ (i : Instr) (a : Address) (s : State), memoryOperand i = some a → ¬ Inside s (effective a s) →
    exec i s = .next (faultedWith s (.addressFault (effective a s)))

/-- R230, R231, R232–R241: STA, ST1..ST6, STX, STJ and STZ complete where M is in memory: the word at M
becomes its insert, every other word is as it was, and nothing but memory and pc changes. -/
def Obligations.StoresInsertTheFieldAtM : Prop :=
  ∀ (a : Address) (f : Field) (s : State), f.valid = true → s.mem.wf → Inside s (effective a s) →
    ∀ x ∈ storeTable s, ∃ t, exec (x.1 a f) s = .next t ∧
      t.mem.read (effective a s).toNat = insertField (s.mem.read (effective a s).toNat) f x.2 ∧
      (∀ b, b ≠ (effective a s).toNat → t.mem.read b = s.mem.read b) ∧
      t = { s with mem := t.mem, pc := s.pc + 1 }

/-! ### Arithmetic -/

/-- R250, R251, R254–R257: ADD and SUB complete where M is in memory, with the exact sum reduced to five
bytes, OV set on overflow and otherwise kept. -/
def Obligations.AddAndSubtractComplete : Prop :=
  ∀ (a : Address) (f : Field) (s : State), f.valid = true → Inside s (effective a s) →
    let v := fieldVal (s.mem.read (effective a s).toNat) f
    exec (.add a f) s = .next { s with
      rA := sumWord s.rA (s.rA.val + v), ov := sumOv s (s.rA.val + v), pc := s.pc + 1 } ∧
    exec (.sub a f) s = .next { s with
      rA := sumWord s.rA (s.rA.val - v), ov := sumOv s (s.rA.val - v), pc := s.pc + 1 }

/-- R252, R254, R258: MUL completes where M is in memory; rA:rX hold the product, both with the sign plus iff
the signs agree; OV and CI are kept. -/
def Obligations.MultiplyCompletes : Prop :=
  ∀ (a : Address) (f : Field) (s : State), f.valid = true → Inside s (effective a s) →
    let w := s.mem.read (effective a s).toNat
    ∃ t, exec (.mul a f) s = .next t ∧
      t.rA.mag.toNat * 64 ^ 5 + t.rX.mag.toNat = s.rA.mag.toNat * fieldMag w f ∧
      t.rA.sign = (if s.rA.sign = fieldSign w f then .plus else .minus) ∧ t.rX.sign = t.rA.sign ∧
      t = { s with rA := t.rA, rX := t.rX, pc := s.pc + 1 }

/-- R253, R254, R259: DIV completes where M is in memory and |rA| < |V|; rA is the quotient, plus iff the
signs agree, and rX the remainder with rA's old sign; OV is kept. -/
def Obligations.DivideCompletes : Prop :=
  ∀ (a : Address) (f : Field) (s : State), f.valid = true → Inside s (effective a s) →
    let w := s.mem.read (effective a s).toNat
    s.rA.mag.toNat < fieldMag w f →
    ∃ t, exec (.div a f) s = .next t ∧
      t.rA.mag.toNat * fieldMag w f + t.rX.mag.toNat = s.rA.mag.toNat * 64 ^ 5 + s.rX.mag.toNat ∧
      t.rX.mag.toNat < fieldMag w f ∧
      t.rA.sign = (if s.rA.sign = fieldSign w f then .plus else .minus) ∧ t.rX.sign = s.rA.sign ∧
      t = { s with rA := t.rA, rX := t.rX, pc := s.pc + 1 }

/-- R253, R255, R259: DIV with |V| = 0 or |V| ≤ |rA| sets OV, faults not, and changes nothing but rA and rX
(whose values are free, so none is stated), OV, pc and the count of draws. -/
def Obligations.DivideOverflowSetsOV : Prop :=
  ∀ (a : Address) (f : Field) (s : State), f.valid = true → Inside s (effective a s) →
    let w := s.mem.read (effective a s).toNat
    fieldMag w f = 0 ∨ fieldMag w f ≤ s.rA.mag.toNat →
    ∃ t, exec (.div a f) s = .next t ∧
      t = { s with rA := t.rA, rX := t.rX, ov := true, draws := t.draws, pc := s.pc + 1 }

/-- R261: the value laws of ADD, SUB, MUL and DIV. -/
def Obligations.ArithmeticValueLaws : Prop :=
  ∀ (a : Address) (f : Field) (s t : State), f.valid = true → Inside s (effective a s) →
    let w := s.mem.read (effective a s).toNat
    (exec (.add a f) s = .next t → (s.rA.val + fieldVal w f).natAbs < 64 ^ 5 →
      t.rA.val = s.rA.val + fieldVal w f) ∧
    (exec (.sub a f) s = .next t → (s.rA.val - fieldVal w f).natAbs < 64 ^ 5 →
      t.rA.val = s.rA.val - fieldVal w f) ∧
    (exec (.mul a f) s = .next t →
      t.rA.mag.toNat * 64 ^ 5 + t.rX.mag.toNat = s.rA.mag.toNat * fieldMag w f) ∧
    (exec (.div a f) s = .next t → s.rA.mag.toNat < fieldMag w f →
      s.rA.mag.toNat * 64 ^ 5 + s.rX.mag.toNat = t.rA.mag.toNat * fieldMag w f + t.rX.mag.toNat ∧
        t.rX.mag.toNat < fieldMag w f)

/-! ### Shifts -/

/-- R280–R282, R284, R285: SLA and SRA complete for a count ≥ 0: bytes of rA move, zeros come in, the sign
stays; no shift writes OV where SHIFT_SETS_OVERFLOW is false.  Under true, that SLA sets OV when any of the
first min(n, 5) bytes is not zero is the model's reading of R282 (log entry 12, DEDUCED, unsafe: D14 does
not define it further). -/
def Obligations.ShiftsOfAComplete : Prop :=
  ∀ (a : Address) (s : State), 0 ≤ effective a s →
    let n := (effective a s).toNat
    (∃ t, exec (.sla a) s = .next t ∧ t.rA.sign = s.rA.sign ∧
      (∀ i, 1 ≤ i → i ≤ 5 → wordByte t.rA i = if i + n ≤ 5 then wordByte s.rA (i + n) else 0) ∧
      t = { s with rA := t.rA, pc := s.pc + 1, ov := s.ov || (s.params.shiftSetsOverflow &&
        [1, 2, 3, 4, 5].any fun (i : Nat) => decide (i ≤ n ∧ wordByte s.rA i ≠ 0)) }) ∧
    (∃ t, exec (.sra a) s = .next t ∧ t.rA.sign = s.rA.sign ∧
      (∀ i, 1 ≤ i → i ≤ 5 → wordByte t.rA i = if n < i then wordByte s.rA (i - n) else 0) ∧
      t = { s with rA := t.rA, pc := s.pc + 1 })

/-- R280–R282, R286, R287: SLAX and SRAX complete for a count ≥ 0: the ten bytes of rA:rX move as one, zeros
come in, both signs stay; no shift writes OV where SHIFT_SETS_OVERFLOW is false.  Under true, that SLAX sets
OV when any of the first min(n, 10) bytes is not zero is the model's reading of R282 (log entry 12,
DEDUCED, unsafe: D14 does not define it further). -/
def Obligations.ShiftsOfAXComplete : Prop :=
  ∀ (a : Address) (s : State), 0 ≤ effective a s →
    let n := (effective a s).toNat
    (∃ t, exec (.slax a) s = .next t ∧ t.rA.sign = s.rA.sign ∧ t.rX.sign = s.rX.sign ∧
      (∀ i, 1 ≤ i → i ≤ 10 → byteAX t i = if i + n ≤ 10 then byteAX s (i + n) else 0) ∧
      t = { s with rA := t.rA, rX := t.rX, pc := s.pc + 1, ov := s.ov || (s.params.shiftSetsOverflow &&
        [1, 2, 3, 4, 5, 6, 7, 8, 9, 10].any fun (i : Nat) => decide (i ≤ n ∧ byteAX s i ≠ 0)) }) ∧
    (∃ t, exec (.srax a) s = .next t ∧ t.rA.sign = s.rA.sign ∧ t.rX.sign = s.rX.sign ∧
      (∀ i, 1 ≤ i → i ≤ 10 → byteAX t i = if n < i then byteAX s (i - n) else 0) ∧
      t = { s with rA := t.rA, rX := t.rX, pc := s.pc + 1 })

/-- R280, R281, R288, R289: SLC and SRC complete for a count ≥ 0: the ten bytes of rA:rX rotate, no byte is
lost, both signs stay. -/
def Obligations.RotationsComplete : Prop :=
  ∀ (a : Address) (s : State), 0 ≤ effective a s →
    let n := (effective a s).toNat
    (∃ t, exec (.slc a) s = .next t ∧ t.rA.sign = s.rA.sign ∧ t.rX.sign = s.rX.sign ∧
      (∀ i, 1 ≤ i → i ≤ 10 → byteAX t i = byteAX s ((i - 1 + n) % 10 + 1)) ∧
      t = { s with rA := t.rA, rX := t.rX, pc := s.pc + 1 }) ∧
    (∃ t, exec (.src a) s = .next t ∧ t.rA.sign = s.rA.sign ∧ t.rX.sign = s.rX.sign ∧
      (∀ i, 1 ≤ i → i ≤ 10 → byteAX s i = byteAX t ((i - 1 + n) % 10 + 1)) ∧
      t = { s with rA := t.rA, rX := t.rX, pc := s.pc + 1 })

/-- R504: each of the six shifts with val(M) < 0 is an OperandFault that records val(M), with no other
change. -/
def Obligations.NegativeShiftCountFaults : Prop :=
  ∀ (a : Address) (s : State), effective a s < 0 → ∀ sh ∈ shifts,
    exec (sh a) s = .next (faultedWith s (.operandFault (effective a s)))

/-! ### Compares and jumps -/

/-- R300, R301: the eight compares complete where M is in memory, and write CI, from the values of the field
in the register and in memory, and pc alone; (0:0) gives EQUAL. -/
def Obligations.ComparesSetCI : Prop :=
  ∀ (a : Address) (f : Field) (s : State), f.valid = true → Inside s (effective a s) →
    let w := s.mem.read (effective a s).toNat
    ∀ x ∈ compareTable s,
      exec (x.1 a f) s = .next { s with pc := s.pc + 1, ci :=
        (if fieldVal x.2 f < fieldVal w f then .less
         else if fieldVal x.2 f = fieldVal w f then .equal else .greater) } ∧
      (f.l.toNat = 0 → f.r.toNat = 0 → exec (x.1 a f) s = .next { s with pc := s.pc + 1, ci := .equal })

/-- R303: a register of magnitude 0 against a word of magnitude 0 gives CI = EQUAL in every compare and every
valid field, whatever the two signs. -/
def Obligations.NegativeZeroComparesEqual : Prop :=
  ∀ (a : Address) (f : Field) (s : State), f.valid = true → Inside s (effective a s) →
    (s.mem.read (effective a s).toNat).mag = 0 → ∀ x ∈ compareTable s, x.2.mag = 0 →
      exec (x.1 a f) s = .next { s with pc := s.pc + 1, ci := .equal }

/-- R320–R322: the ten jumps of opcode 39, by the condition table: taken, not taken, and taken with a target
outside memory, with the rJ and the OV each leaves. -/
def Obligations.JumpsOfOpcode39 : Prop :=
  ∀ (a : Address) (s : State), ∀ x ∈ jumpTable s,
    JumpStep (x.instr a) a x.taken (if x.writesJ then recordedJ s x.taken else s.rJ) { s with ov := x.ov } s

/-- R350, R351: the 48 register-test jumps: the condition on the register's value, taken, not taken, and taken
with a target outside memory; every one records in rJ, and −0 counts as zero. -/
def Obligations.RegisterTestJumps : Prop :=
  ∀ (a : Address) (s : State), ∀ x ∈ testTable s,
    JumpStep (x.1 a) a x.2 (recordedJ s x.2) s s

/-! ### Address transfer -/

/-- R420: INCA, DECA, INCX and DECX complete always: the exact sum by the add law, with OV set on overflow. -/
def Obligations.IncrementsOfAAndXComplete : Prop :=
  ∀ (a : Address) (s : State),
    let m := effective a s
    exec (.inca a) s = .next { s with
      rA := sumWord s.rA (s.rA.val + m), ov := sumOv s (s.rA.val + m), pc := s.pc + 1 } ∧
    exec (.deca a) s = .next { s with
      rA := sumWord s.rA (s.rA.val - m), ov := sumOv s (s.rA.val - m), pc := s.pc + 1 } ∧
    exec (.incx a) s = .next { s with
      rX := sumWord s.rX (s.rX.val + m), ov := sumOv s (s.rX.val + m), pc := s.pc + 1 } ∧
    exec (.decx a) s = .next { s with
      rX := sumWord s.rX (s.rX.val - m), ov := sumOv s (s.rX.val - m), pc := s.pc + 1 }

/-- R421: INCi and DECi, i = 1..6: a result of magnitude ≤ 4095 is stored, zero keeping the register's sign;
from 4096 on it is an IndexAnomaly, by the policy; OV is never written. -/
def Obligations.IncrementsOfIndexRegisters : Prop :=
  ∀ (k : IndexReg) (a : Address) (s : State),
    let r := s.index k
    IndexWrite k (sgn (r.val + effective a s) r.sign) (r.val + effective a s) s (incIndex k a) ∧
    IndexWrite k (sgn (r.val - effective a s) r.sign) (r.val - effective a s) s (decIndex k a)

/-- R422, R423: ENTA, ENTX, ENNA and ENNX complete always: the register takes the magnitude of M with M's sign,
a zero M that of the address field; ENN the sign its policy gives. -/
def Obligations.EntersOfAAndXComplete : Prop :=
  ∀ (a : Address) (s : State),
    let n : BitVec 30 := BitVec.ofNat 30 (effective a s).natAbs
    exec (.enta a) s = .next { s with rA := ⟨signOfM a s, n⟩, pc := s.pc + 1 } ∧
    exec (.entx a) s = .next { s with rX := ⟨signOfM a s, n⟩, pc := s.pc + 1 } ∧
    exec (.enna a) s = .next { s with rA := ⟨signOfENN a s, n⟩, pc := s.pc + 1 } ∧
    exec (.ennx a) s = .next { s with rX := ⟨signOfENN a s, n⟩, pc := s.pc + 1 }

/-- R422, R423: ENTi and ENNi, i = 1..6: as for rA and rX, with |val(M)| ≥ 4096 an IndexAnomaly. -/
def Obligations.EntersOfIndexRegisters : Prop :=
  ∀ (k : IndexReg) (a : Address) (s : State),
    IndexWrite k (signOfM a s) (effective a s) s (entIndex k a) ∧
    IndexWrite k (signOfENN a s) (effective a s) s (ennIndex k a)

/-! ### Conversions, halt, NOP, MOVE -/

/-- R470: NUM completes always: rA's magnitude becomes the number of the ten digits mod 64^5, its sign stays,
rX and OV are unchanged. -/
def Obligations.NumFoldsTheDigits : Prop :=
  ∀ (a : Address) (s : State), exec (.num a) s = .next { s with
    rA := ⟨s.rA.sign, BitVec.ofNat 30 (tenDigits s % 64 ^ 5)⟩, pc := s.pc + 1 }

/-- R471: CHAR completes always: byte i of rA:rX becomes 30 plus the i-th of the ten decimal digits of |rA|;
both signs stay. -/
def Obligations.CharWritesTheDigits : Prop :=
  ∀ (a : Address) (s : State), ∃ t, exec (.char a) s = .next t ∧
    (∀ i, 1 ≤ i → i ≤ 10 → (byteAX t i).toNat = 30 + s.rA.mag.toNat / 10 ^ (10 - i) % 10) ∧
    t.rA.sign = s.rA.sign ∧ t.rX.sign = s.rX.sign ∧
    t = { s with rA := t.rA, rX := t.rX, pc := s.pc + 1 }

/-- R471, from R470: CHAR then NUM restores rA exactly. -/
def Obligations.CharThenNumRestoresA : Prop :=
  ∀ (a b : Address) (s : State), ∃ t u, exec (.char a) s = .next t ∧ exec (.num b) t = .next u ∧ u.rA = s.rA

/-- R472, R473: HLT ends the run in HALTED with pc advanced by one, NOP advances pc; neither changes anything
else. -/
def Obligations.HaltAndNop : Prop :=
  ∀ (a : Address) (f : Field) (s : State),
    exec (.hlt a) s = .next { s with runState := .halted, pc := s.pc + 1 } ∧
    exec (.nop a f) s = .next { s with pc := s.pc + 1 }

/-- R474: MOVE completes where both blocks are in memory and rI1 + F stays below 4096: the words are copied in
increasing order, so a target that starts d words above the source repeats its first d words; every
other word is as it was; rI1 grows by F.  F = 0 changes nothing but pc. -/
def Obligations.MoveCopiesTheBlock : Prop :=
  ∀ (a : Address) (n : BitVec 6) (s : State), s.mem.wf →
    (n = 0 → exec (.move a n) s = .next { s with pc := s.pc + 1 }) ∧
    (n ≠ 0 → Inside s (effective a s) → Inside s (effective a s + n.toNat - 1) →
      Inside s s.rI1.val → Inside s (s.rI1.val + n.toNat - 1) → s.rI1.val + n.toNat < 4096 →
      let src := (effective a s).toNat
      let dst := s.rI1.val.toNat
      ∃ t, exec (.move a n) s = .next t ∧
        (∀ j, j < n.toNat → t.mem.read (dst + j) =
          if src < dst then s.mem.read (src + j % (dst - src)) else s.mem.read (src + j)) ∧
        (∀ b, b < dst ∨ dst + n.toNat ≤ b → t.mem.read b = s.mem.read b) ∧
        t = { s with rI1 := ⟨.plus, BitVec.ofNat 12 (dst + n.toNat)⟩, mem := t.mem, pc := s.pc + 1 })

/-- R474, R503, R505: MOVE with an address of either block outside memory faults on one such address with
nothing copied; with both blocks in memory and rI1 + F ≥ 4096 it completes with the block copied in
increasing order, every other word as it was and the anomaly logged, or ends the run with nothing copied,
by the policy. -/
def Obligations.MoveFaultsBeforeAnyCopy : Prop :=
  ∀ (a : Address) (n : BitVec 6) (s : State),
    let src := effective a s
    let dst := s.rI1.val
    ((∃ j, j < n.toNat ∧ (¬ Inside s (src + j) ∨ ¬ Inside s (dst + j))) →
      ∃ x, ¬ Inside s x ∧ (∃ j, j < n.toNat ∧ (x = src + j ∨ x = dst + j)) ∧
        exec (.move a n) s = .next (faultedWith s (.addressFault x))) ∧
    ((∀ j, j < n.toNat → Inside s (src + j) ∧ Inside s (dst + j)) → 4096 ≤ dst + n.toNat →
      (s.params.indexAnomaly = .stop →
        exec (.move a n) s = .next (faultedWith s (.indexAnomaly .r1 (dst + n.toNat)))) ∧
      (s.params.indexAnomaly = .record → s.mem.wf → ∃ t, exec (.move a n) s = .next t ∧
        (∀ j, j < n.toNat → t.mem.read (dst.toNat + j) =
          if src < dst then s.mem.read (src.toNat + j % (dst.toNat - src.toNat))
          else s.mem.read (src.toNat + j)) ∧
        (∀ b, b < dst.toNat ∨ dst.toNat + n.toNat ≤ b → t.mem.read b = s.mem.read b) ∧
        t = { s with rI1 := ⟨.plus, BitVec.ofNat 12 ((dst + n.toNat).toNat % 4096)⟩, mem := t.mem,
                     log := s.log ++ [⟨.indexAnomaly .r1 (dst + n.toNat), s.pc⟩], pc := s.pc + 1 }))

/-! ### Input and output -/

/-- R480, R481, R485: JBUS jumps where the oracle answers busy, JRED where it answers ready; each uses one
answer, records in rJ and checks its target as every jump does.  The form of an answer and that it is used up
are the model's choice (log entries 5 and 6). -/
def Obligations.DeviceJumpsFollowTheAnswer : Prop :=
  ∀ (a : Address) (u : BitVec 6) (s : State) (busy : Bool) (cells : List (Nat × Word)),
    let after := { s with oracle := s.oracle.tail, calls := s.calls + 1 }
    (s.deviceAnswer .jbus u (effective a s) = .answer busy cells →
      JumpStep (.jbus a u) a busy (recordedJ s busy) after s) ∧
    (s.deviceAnswer .jred u (effective a s) = .answer busy cells →
      JumpStep (.jred a u) a (!busy) (recordedJ s (!busy)) after s)

/-- R480, R482, R484: IOC, and OUT where M and its block are in memory, complete on the oracle's answer and
change nothing of the block but pc.  That they use up one answer (oracle and calls, the model's own fields) is
the model's choice (log entries 5 and 6). -/
def Obligations.IocAndOutComplete : Prop :=
  ∀ (a : Address) (u : BitVec 6) (s : State) (busy : Bool) (cells : List (Nat × Word)),
    let after := { s with oracle := s.oracle.tail, calls := s.calls + 1, pc := s.pc + 1 }
    (s.deviceAnswer .ioc u (effective a s) = .answer busy cells → exec (.ioc a u) s = .next after) ∧
    (s.deviceAnswer .out u (effective a s) = .answer busy cells → Inside s (effective a s) →
      (∀ x ∈ blockAddresses s.params.ioBlock u (effective a s), Inside s x) →
      exec (.out a u) s = .next after)

/-- R480, R483: IN, where M and its block are in memory, completes: each word of the block in memory is the
oracle's where it lists one, every other word is as it was, and nothing else changes but pc.  The form of an
answer is the model's choice: the use of one answer (log entry 5), and that the last listed pair of an
address counts and a listed word outside the block or outside memory is dropped (log entry 6). -/
def Obligations.InWritesOnlyItsBlock : Prop :=
  ∀ (a : Address) (u : BitVec 6) (s : State) (busy : Bool) (cells : List (Nat × Word)), s.mem.wf →
    s.deviceAnswer .inp u (effective a s) = .answer busy cells → Inside s (effective a s) →
    (∀ x ∈ blockAddresses s.params.ioBlock u (effective a s), Inside s x) →
    ∃ t, exec (.inp a u) s = .next t ∧
      (∀ x, t.mem.read x =
        if x < s.params.memSize ∧ inBlock s.params.ioBlock u (effective a s) x = true then
          (imageWord cells x).getD (s.mem.read x) else s.mem.read x) ∧
      t = { s with mem := t.mem, oracle := s.oracle.tail, calls := s.calls + 1, pc := s.pc + 1 }

/-- R506: an I/O instruction whose device call answers fail is a DeviceFault that records the unit, with no
other change (IN and OUT once their addresses are in memory). -/
def Obligations.DeviceFailureFaults : Prop :=
  ∀ (a : Address) (u : BitVec 6) (s : State),
    let m := effective a s
    let bad := faultedWith s (.deviceFault u)
    let buffer := Inside s m ∧ ∀ x ∈ blockAddresses s.params.ioBlock u m, Inside s x
    (s.deviceAnswer .jbus u m = .fail → exec (.jbus a u) s = .next bad) ∧
    (s.deviceAnswer .ioc u m = .fail → exec (.ioc a u) s = .next bad) ∧
    (s.deviceAnswer .inp u m = .fail → buffer → exec (.inp a u) s = .next bad) ∧
    (s.deviceAnswer .out u m = .fail → buffer → exec (.out a u) s = .next bad) ∧
    (s.deviceAnswer .jred u m = .fail → exec (.jred a u) s = .next bad)

/-- R480, R503, R510: IN and OUT with M or an address of the block outside memory fault on one such address,
before the oracle is asked. -/
def Obligations.BufferOutsideMemoryFaults : Prop :=
  ∀ (a : Address) (u : BitVec 6) (s : State),
    let m := effective a s
    (¬ Inside s m → exec (.inp a u) s = .next (faultedWith s (.addressFault m)) ∧
      exec (.out a u) s = .next (faultedWith s (.addressFault m))) ∧
    ((∃ x ∈ blockAddresses s.params.ioBlock u m, ¬ Inside s x) →
      ∃ x, (x = m ∨ x ∈ blockAddresses s.params.ioBlock u m) ∧ ¬ Inside s x ∧
        exec (.inp a u) s = .next (faultedWith s (.addressFault x)) ∧
        exec (.out a u) s = .next (faultedWith s (.addressFault x)))

/-! ### The whole machine -/

/-- R53, R511: every instruction answers a next state in every state: no meaning stops the model. -/
def Obligations.EveryInstructionAnswersANextState : Prop :=
  ∀ (i : Instr) (s : State), ∃ t, exec i s = .next t

/-- R40, "written by": a register is changed only by the instructions the table names for it (every
instruction of the block). -/
def Obligations.RegistersChangeOnlyWhereNamed : Prop :=
  ∀ (i : Instr) (s t : State), exec i s = .next t →
    (writesA i = false → t.rA = s.rA) ∧ (writesX i = false → t.rX = s.rX) ∧
    (∀ k, writesIndex i k = false → t.index k = s.index k) ∧ (writesJ i = false → t.rJ = s.rJ)

/-- R48, R49: OV is changed only by the instructions that may set it, which never clear it, and by JOV and JNOV,
which clear it; CI is changed only by the compares. -/
def Obligations.FlagsChangeOnlyWhereNamed : Prop :=
  ∀ (i : Instr) (s t : State), exec i s = .next t →
    (setsOv s.params i = false → clearsOv i = false → t.ov = s.ov) ∧
    (clearsOv i = false → s.ov = true → t.ov = true) ∧
    (clearsOv i = true → t.ov = false ∨ ∃ x, t = faultedWith s (.addressFault x)) ∧
    (writesCi i = false → t.ci = s.ci)

/-- R92: memory is changed only by the stores, at M alone; by MOVE, in its target block alone; and by IN, in its
block alone.  Every other instruction leaves every word as it was. -/
def Obligations.MemoryChangesOnlyWhereStored : Prop :=
  ∀ (i : Instr) (s t : State), exec i s = .next t → s.mem.wf → ∀ b : Nat,
    (∀ a, storeAddress i = some a → b ≠ (effective a s).toNat → t.mem.read b = s.mem.read b) ∧
    (∀ a n, i = .move a n → (b : Int) < s.rI1.val ∨ s.rI1.val + n.toNat ≤ b →
      t.mem.read b = s.mem.read b) ∧
    (∀ a u, i = .inp a u → inBlock s.params.ioBlock u (effective a s) b = false →
      t.mem.read b = s.mem.read b) ∧
    (storeAddress i = none → (∀ a n, i ≠ .move a n) → (∀ a u, i ≠ .inp a u) → t.mem = s.mem)

/-- R53: after an instruction that does not fault, pc is one on, unless it is a jump that is taken, and then pc
is its target, which is in memory. -/
def Obligations.NextPcIsOneOnUnlessAJump : Prop :=
  ∀ (i : Instr) (s t : State), exec i s = .next t →
    (t.runState = .running ∨ t.runState = .halted) → s.runState = .running →
    t.pc = s.pc + 1 ∨
      (isJump i = true ∧ Inside s (effective (encodeParts i).2.2 s) ∧
        t.pc = BitVec.ofNat 13 (effective (encodeParts i).2.2 s).toNat)

/-- R511: a step that ends the run FAULTED writes nothing but the run state, with the pc of the instruction; the
same holds of a refusal (R509). -/
def Obligations.FatalFaultsChangeNothingElse : Prop :=
  ∀ s t : State, step s = .next t →
    (∀ e p, t.runState = .faulted e p → t = { s with runState := .faulted e s.pc }) ∧
    (∀ p c f, t.runState = .refused p c f → t = { s with runState := .refused s.pc c f })

/-- R472, R56: only HLT ends a run HALTED. -/
def Obligations.OnlyHltHalts : Prop :=
  ∀ s t : State, step s = .next t → t.runState = .halted →
    ∃ a, decode s.params (s.mem.read s.pc.toNat) = .instr (.hlt a)

/-- R58, R60: a step changes no parameter, takes no entry out of the diagnostics log and adds at most one, with
its own pc; and only an I/O instruction uses a device answer, only DIV makes draws. -/
def Obligations.StepKeepsParametersAndAppendsToTheLog : Prop :=
  ∀ s t : State, step s = .next t →
    t.params = s.params ∧ (t.log = s.log ∨ ∃ e, t.log = s.log ++ [⟨e, s.pc⟩]) ∧
    (t.oracle ≠ s.oracle ∨ t.calls ≠ s.calls → ∃ i, isIo i = true ∧
      decode s.params (s.mem.read s.pc.toNat) = .instr i) ∧
    (t.draws ≠ s.draws → ∃ a f, decode s.params (s.mem.read s.pc.toNat) = .instr (.div a f))

/-- The invariant of the block, from R52, R53, R58, R90, R500–R511: every step keeps it, from every state that
has it. -/
def Obligations.EveryStepKeepsTheInvariant : Prop :=
  ∀ s t : State, s.Inv → step s = .next t → t.Inv

/-- The invariant holds right after reset. -/
def Obligations.ResetHasTheInvariant : Prop := State.reset.Inv

/-- From R550, R551 and R552: a launch whose preconditions hold starts a run with the image in memory, the
registers of INIT_REGS, pc at START, RUNNING and an empty log, and the invariant holds of it; a launch
whose preconditions fail is refused.  R552 does not speak of the image's length: that an image longer than
MEM_SIZE is refused, and a shorter one is filled with +0, is the model's choice (log entry 24). -/
def Obligations.LaunchLoadsTheState : Prop :=
  ∀ (p : Params) (init : InitRegs) (image : List Nat) (start : Nat) (oracle : List DeviceAnswer),
    let ok := 4000 ≤ p.memSize ∧ p.memSize ≤ 4096 ∧ image.length ≤ p.memSize ∧
      (∀ n ∈ image, n < 2 ^ 31) ∧ start < p.memSize
    (¬ ok → launch p init image start oracle = none) ∧
    (ok → ∃ s, launch p init image start oracle = some s ∧ s.Inv ∧
      (∀ x, s.mem.read x = unpackWord (BitVec.ofNat 31 (image.getD x 0))) ∧
      s.rA = init.rA ∧ s.rX = init.rX ∧ s.rI1 = init.rI1 ∧ s.rI2 = init.rI2 ∧ s.rI3 = init.rI3 ∧
      s.rI4 = init.rI4 ∧ s.rI5 = init.rI5 ∧ s.rI6 = init.rI6 ∧ s.rJ = init.rJ ∧ s.ov = init.ov ∧
      s.ci = init.ci ∧ s.pc.toNat = start ∧ s.runState = .running ∧ s.log = [] ∧ s.params = p)

/-- R550, with START = 0 and an empty image, the model's choice (log entries 8 and 9): reset is the default
launch state. -/
def Obligations.ResetIsTheDefaultLaunch : Prop :=
  launch Params.default InitRegs.default [] 0 [] = some State.reset ∧
  State.reset.rA = ⟨.plus, 0⟩ ∧ State.reset.rX = ⟨.plus, 0⟩ ∧ (∀ k, State.reset.index k = ⟨.plus, 0⟩) ∧
  State.reset.rJ = 0 ∧ State.reset.ov = false ∧ State.reset.ci = .equal ∧ State.reset.pc = 0 ∧
  State.reset.runState = .running ∧ State.reset.log = [] ∧ ∀ a, State.reset.mem.read a = ⟨.plus, 0⟩
end

