-- ==== Sys2Proof/Laws/Bytes.lean ====
section
/-! SUPPORT. Bytes of words: their numbers, a word from its bytes, the field engine on magnitudes. -/

namespace Sys2Proof.Machine

/-- Byte i as a number. -/
theorem wordByte_toNat (w : Word) (i : Nat) : (wordByte w i).toNat = w.mag.toNat / 64 ^ (5 - i) % 64 := by
  rw [wordByte, BitVec.extractLsb'_toNat, Nat.shiftRight_eq_div_pow, Nat.pow_mul]

/-- The magnitude of five bytes as a number. -/
theorem magOfBytes_toNat (a b c d e : Byte) : (magOfBytes [a, b, c, d, e]).toNat =
    a.toNat * 64 ^ 4 + b.toNat * 64 ^ 3 + c.toNat * 64 ^ 2 + d.toNat * 64 + e.toNat := by
  simp only [magOfBytes, List.foldl, BitVec.toNat_ofNat]
  omega

/-- A magnitude is the number of its bytes. -/
theorem mag_eq_bytes (w : Word) : w.mag.toNat = (wordByte w 1).toNat * 64 ^ 4 + (wordByte w 2).toNat * 64 ^ 3 +
    (wordByte w 3).toNat * 64 ^ 2 + (wordByte w 4).toNat * 64 + (wordByte w 5).toNat := by
  have := w.mag.isLt
  simp only [wordByte_toNat]
  omega

/-- Byte i of a word whose bytes were replaced. -/
theorem wordByte_withBytes (w : Word) (a b c d e : Byte) {i : Nat} (h1 : 1 ≤ i) (h5 : i ≤ 5) :
    wordByte (withBytes w [a, b, c, d, e]) i = [a, b, c, d, e].getD (i - 1) 0 := by
  apply BitVec.eq_of_toNat_eq
  have : i = 1 ∨ i = 2 ∨ i = 3 ∨ i = 4 ∨ i = 5 := by omega
  rcases this with rfl | rfl | rfl | rfl | rfl <;>
    simp [wordByte_toNat, withBytes, magOfBytes_toNat] <;> omega

/-- The same for any list of five bytes. -/
theorem wordByte_withBytes_getD (w : Word) {bs : List Byte} (h : bs.length = 5) {i : Nat} (h1 : 1 ≤ i) (h5 : i ≤ 5) :
    wordByte (withBytes w bs) i = bs.getD (i - 1) 0 := by
  match bs, h with
  | [a, b, c, d, e], _ => exact wordByte_withBytes w a b c d e h1 h5

/-- Words with one sign and one set of bytes are one word. -/
theorem word_ext_bytes {v w : Word} (hs : v.sign = w.sign)
    (hb : ∀ i, 1 ≤ i → i ≤ 5 → wordByte v i = wordByte w i) : v = w := by
  obtain ⟨vs, vm⟩ := v
  obtain ⟨ws, wm⟩ := w
  have h := mag_eq_bytes ⟨vs, vm⟩
  rw [hb 1, hb 2, hb 3, hb 4, hb 5, ← mag_eq_bytes ⟨ws, wm⟩] at h <;> try omega
  simp only at hs h
  rw [hs, BitVec.eq_of_toNat_eq h]

/-- The low bytes of a number. -/
theorem byteMask_and (m : BitVec 30) {n : Nat} (h : n ≤ 5) : (m &&& byteMask n).toNat = m.toNat % 64 ^ n := by
  have hp : (2 : Nat) ^ (6 * n) - 1 < 2 ^ 30 :=
    Nat.lt_of_lt_of_le (Nat.sub_lt (Nat.two_pow_pos _) Nat.one_pos) (Nat.pow_le_pow_right (by omega) (by omega))
  rw [BitVec.toNat_and, byteMask, BitVec.toNat_ofNat, Nat.mod_eq_of_lt hp, Nat.and_two_pow_sub_one_eq_mod,
    Nat.pow_mul]

/-- A valid field's bounds. -/
theorem field_valid {f : Field} (h : f.valid = true) : f.r.toNat ≤ 5 ∧ f.l.toNat ≤ f.r.toNat := by
  simpa [Field.valid] using h

/-- A field's magnitude as a number (20_memory.md R100). -/
theorem extract_toNat (w : Word) {f : Field} (h : f.valid = true) :
    (extractField w f).mag.toNat = w.mag.toNat / 64 ^ (5 - f.r.toNat) % 64 ^ fieldBytes f := by
  have := field_valid h
  rw [extractField, byteMask_and _ (by unfold fieldBytes fieldFirst; omega), BitVec.toNat_ushiftRight,
    Nat.shiftRight_eq_div_pow, Nat.pow_mul]

/-- A bit of a byte of a word. -/
theorem wordByte_getLsbD (w : Word) (i : Nat) {j : Nat} (hj : j < 6) :
    (wordByte w i).getLsbD j = w.mag.getLsbD (6 * (5 - i) + j) := by
  simp [wordByte, hj]

/-- The bits of the low bytes. -/
theorem byteMask_getLsbD (n : Nat) {k : Nat} (hk : k < 30) : (byteMask n).getLsbD k = decide (k < 6 * n) := by
  rw [byteMask, BitVec.getLsbD_ofNat, Nat.testBit_two_pow_sub_one]
  simp [hk]

/-- Byte i of an insert: the source's byte inside the field, the target's outside (20_memory.md R101). -/
theorem wordByte_insert (d v : Word) {f : Field} (h : f.valid = true) {i : Nat} (h1 : 1 ≤ i) (h5 : i ≤ 5) :
    wordByte (insertField d f v) i =
      if fieldFirst f ≤ i ∧ i ≤ f.r.toNat then wordByte v (i + 5 - f.r.toNat) else wordByte d i := by
  have hf := field_valid h
  have hn : fieldBytes f = f.r.toNat + 1 - fieldFirst f := rfl
  have hf1 : 1 ≤ fieldFirst f := Nat.le_max_right _ _
  apply BitVec.eq_of_getLsbD_eq
  intro j hj
  have hk : 6 * (5 - i) + j < 30 := by omega
  rw [wordByte_getLsbD _ _ hj]
  simp only [insertField, BitVec.getLsbD_or, BitVec.getLsbD_and, BitVec.getLsbD_not, BitVec.getLsbD_shiftLeft, hk,
    decide_true, Bool.true_and, byteMask_getLsbD _ (Nat.lt_of_le_of_lt (Nat.sub_le _ _) hk)]
  by_cases hin : fieldFirst f ≤ i ∧ i ≤ f.r.toNat
  · have ha : ¬ 6 * (5 - i) + j < 6 * (5 - f.r.toNat) := by omega
    have hb : 6 * (5 - i) + j - 6 * (5 - f.r.toNat) < 6 * fieldBytes f := by omega
    have he : 6 * (5 - i) + j - 6 * (5 - f.r.toNat) = 6 * (5 - (i + 5 - f.r.toNat)) + j := by omega
    rw [if_pos hin, wordByte_getLsbD _ _ hj, ← he]
    simp [ha, hb]
  · rw [if_neg hin, wordByte_getLsbD _ _ hj]
    by_cases ha : 6 * (5 - i) + j < 6 * (5 - f.r.toNat)
    · simp [ha]
    · have hb : ¬ 6 * (5 - i) + j - 6 * (5 - f.r.toNat) < 6 * fieldBytes f := by omega
      simp [hb]

@[simp] theorem shl_length (bs : List Byte) (n : Nat) : (shl bs n).length = bs.length := by
  simp only [shl, List.length_append, List.length_drop, List.length_replicate]
  omega

@[simp] theorem shr_length (bs : List Byte) (n : Nat) : (shr bs n).length = bs.length := by
  simp only [shr, List.length_append, List.length_take, List.length_replicate]
  omega

@[simp] theorem rotl_length (bs : List Byte) (n : Nat) : (rotl bs n).length = bs.length := by
  simp only [rotl, List.length_append, List.length_drop, List.length_take]
  omega

@[simp] theorem rotr_length (bs : List Byte) (n : Nat) : (rotr bs n).length = bs.length := by
  simp only [rotr, List.length_append, List.length_drop, List.length_take]
  omega

/-- Byte j + 1 after a left shift (43_shift.md R280). -/
theorem shl_getD (bs : List Byte) (n j : Nat) :
    (shl bs n).getD j 0 = if j + n < bs.length then bs.getD (j + n) 0 else 0 := by
  simp only [shl, List.getD_eq_getElem?_getD, List.getElem?_append, List.length_drop, List.getElem?_drop,
    List.getElem?_replicate]
  split
  · rw [if_pos (by omega), Nat.add_comm]
  · rename_i h
    have h2 : ¬ j + n < bs.length := by omega
    rw [if_neg h2]
    split <;> rfl

/-- Byte j + 1 after a right shift (43_shift.md R280). -/
theorem shr_getD (bs : List Byte) (n : Nat) {j : Nat} (hj : j < bs.length) :
    (shr bs n).getD j 0 = if n ≤ j then bs.getD (j - n) 0 else 0 := by
  simp only [shr, List.getD_eq_getElem?_getD, List.getElem?_append, List.length_replicate, List.getElem?_replicate]
  split
  · rw [if_neg (by omega)]
    rfl
  · rw [if_pos (by omega), List.getElem?_take, if_pos (by omega)]
    congr 2
    omega

/-- Byte j + 1 after a left rotation (43_shift.md R280). -/
theorem rotl_getD (bs : List Byte) (n : Nat) {j : Nat} (hj : j < bs.length) :
    (rotl bs n).getD j 0 = bs.getD ((j + n) % bs.length) 0 := by
  have hm := Nat.mod_lt n (Nat.lt_of_le_of_lt (Nat.zero_le _) hj)
  have e : (j + n) % bs.length =
      if j + n % bs.length < bs.length then j + n % bs.length else j + n % bs.length - bs.length := by
    rw [Nat.add_mod, Nat.mod_eq_of_lt hj]
    split
    · rw [Nat.mod_eq_of_lt (by assumption)]
    · rw [Nat.mod_eq_sub_mod (by omega), Nat.mod_eq_of_lt (by omega)]
  simp only [rotl, List.getD_eq_getElem?_getD, List.getElem?_append, List.length_drop, List.getElem?_drop, e]
  split
  · rw [if_pos (by omega), Nat.add_comm]
  · rw [if_neg (by omega), List.getElem?_take, if_pos (by omega)]
    congr 2
    omega

/-- A right rotation is the left one read backwards (43_shift.md R280). -/
theorem rotr_getD (bs : List Byte) (n : Nat) {j : Nat} (hj : j < bs.length) :
    (rotr bs n).getD ((j + n) % bs.length) 0 = bs.getD j 0 := by
  have hm := Nat.mod_lt n (Nat.lt_of_le_of_lt (Nat.zero_le _) hj)
  have e : (j + n) % bs.length =
      if j + n % bs.length < bs.length then j + n % bs.length else j + n % bs.length - bs.length := by
    rw [Nat.add_mod, Nat.mod_eq_of_lt hj]
    split
    · rw [Nat.mod_eq_of_lt (by assumption)]
    · rw [Nat.mod_eq_sub_mod (by omega), Nat.mod_eq_of_lt (by omega)]
  simp only [rotr, List.getD_eq_getElem?_getD, List.getElem?_append, List.length_drop, List.getElem?_drop, e]
  split
  · rw [if_neg (by omega), List.getElem?_take, if_pos (by omega)]
    congr 2
    omega
  · rw [if_pos (by omega)]
    congr 2
    omega

end Sys2Proof.Machine
end

