-- ==== Sys2Proof/Laws/Codec.lean ====
section
/-! SUPPORT. Small lemmas of the codec, the field bytes and the decoder. -/

namespace Sys2Proof.Laws

/-- The bits of a field byte: R below, L above. -/
theorem fieldByte_getLsbD (l r : BitVec 3) (j : Nat) :
    BitVec.getLsbD (w := 6) (l ++ r) j = if j < 3 then r.getLsbD j else l.getLsbD (j - 3) :=
  BitVec.getLsbD_append

/-- The bits of a packed cell's magnitude: C, F, I and Am, from the least significant up. -/
theorem packed_getLsbD (am : BitVec 12) (i f c : BitVec 6) (j : Nat) :
    BitVec.getLsbD (w := 30) (am ++ i ++ f ++ c) j =
      if j < 6 then c.getLsbD j
      else if j - 6 < 6 then f.getLsbD (j - 6)
      else if j - 6 - 6 < 6 then i.getLsbD (j - 6 - 6)
      else am.getLsbD (j - 6 - 6 - 6) := by
  have h : BitVec.getLsbD (w := 30) (am ++ i ++ f ++ c) j =
      if j < 6 then c.getLsbD j else (am ++ i ++ f).getLsbD (j - 6) := BitVec.getLsbD_append
  rw [h, BitVec.getLsbD_append, BitVec.getLsbD_append]

/-- The low six bits of a packed cell are its opcode. -/
theorem packInstr_opcode (x : Cell) : (packInstr x).mag.toNat % 64 = x.c.toNat := by
  have h : ((packInstr x).mag.setWidth 6).toNat = x.c.toNat := by
    congr 1
    ext j hj
    simp [packInstr, packed_getLsbD, hj]
  simpa using h

theorem encode_opcode (i : Instr) : (encode i).mag.toNat % 64 = (encodeParts i).1.toNat :=
  packInstr_opcode _

/-- The index field of an index operand decodes to it. -/
@[simp] theorem decodeIndex_encodeIndex (x : Option IndexReg) : decodeIndex (encodeIndex x) = some x := by
  rcases x with _ | k
  · rfl
  · cases k <;> rfl

/-- A field specification is read back from its byte. -/
@[simp] theorem fieldOf_fieldByte (f : Field) : fieldOf (fieldByte f) = f := by
  obtain ⟨l, r⟩ := f
  simp only [fieldOf, fieldByte, Field.mk.injEq]
  constructor <;> ext j hj <;> simp [fieldByte_getLsbD, hj]

/-- A byte is the byte of its field specification. -/
@[simp] theorem fieldByte_fieldOf (f : BitVec 6) : fieldByte (fieldOf f) = f := by
  revert f
  decide

/-- An index that decodes is the index field's own. -/
theorem encodeIndex_of_decodeIndex {i : BitVec 6} {x : Option IndexReg} (h : decodeIndex i = some x) :
    encodeIndex x = i := by
  have key : ∀ i : BitVec 6, ∀ y ∈ decodeIndex i, encodeIndex y = i := by decide
  exact key i x h

/-- The number of two bit vectors side by side. -/
theorem append_toNat {m n : Nat} (x : BitVec m) (y : BitVec n) : (x ++ y).toNat = x.toNat * 2 ^ n + y.toNat := by
  rw [BitVec.toNat_append, ← Nat.shiftLeft_add_eq_or_of_lt y.isLt, Nat.shiftLeft_eq]

/-- The number of a bit field. -/
theorem extractLsb_toNat {n : Nat} (x : BitVec n) (s l : Nat) :
    (x.extractLsb' s l).toNat = x.toNat / 2 ^ s % 2 ^ l := by
  rw [BitVec.extractLsb'_toNat, Nat.shiftRight_eq_div_pow]

/-- A packed word as a number. -/
theorem packWord_toNat (w : Word) : (packWord w).toNat = (signBit w.sign).toNat * 2 ^ 30 + w.mag.toNat :=
  append_toNat _ _

/-- A packed cell's magnitude as a number. -/
theorem packInstr_toNat (x : Cell) : (packInstr x).mag.toNat =
    x.am.toNat * 2 ^ 18 + x.i.toNat * 2 ^ 12 + x.f.toNat * 2 ^ 6 + x.c.toNat := by
  show BitVec.toNat (x.am ++ x.i ++ x.f ++ x.c) = _
  simp only [append_toNat]
  omega

@[simp] theorem signBit_bitSign (b : BitVec 1) : signBit (bitSign b) = b := by
  revert b
  decide

@[simp] theorem bitSign_signBit (s : Sign) : bitSign (signBit s) = s := by cases s <;> rfl

end Sys2Proof.Laws
end

