-- ==== Sys2Proof/Laws/Memory.lean ====
section
/-! SUPPORT. Memory: every operation keeps the canonical form and the bound on addresses, and the read
of an address that is not listed. -/

namespace Sys2Proof.Machine

/-- Every address of a write's result is the written one or was listed before. -/
theorem Memory.mem_write {m : Memory} {a : Nat} {w : Word} {c : Nat × Word} (h : c ∈ m.write a w) :
    c = (a, w) ∨ c ∈ m := by
  induction m with
  | nil =>
    simp only [Memory.write] at h
    split at h <;> simp_all
  | cons x m ih =>
    obtain ⟨b, v⟩ := x
    simp only [Memory.write] at h
    split at h
    · split at h <;> simp_all
    · split at h
      · split at h
        · exact .inr (List.mem_cons_of_mem _ h)
        · exact (List.mem_cons.mp h).imp_right (List.mem_cons_of_mem _)
      · rcases List.mem_cons.mp h with h | h
        · exact .inr (h ▸ List.mem_cons_self)
        · exact (ih h).imp_right (List.mem_cons_of_mem _)

/-- A write below a bound keeps every listed address below it. -/
theorem Memory.write_below {m : Memory} {n a : Nat} {w : Word} (hm : m.below n) (ha : a < n) :
    (m.write a w).below n := fun c hc => by
  rcases Memory.mem_write hc with rfl | h
  · exact ha
  · exact hm c h

/-- A write keeps the canonical form. -/
theorem Memory.write_wf {m : Memory} {a : Nat} {w : Word} (hm : m.wf) : (m.write a w).wf := by
  induction m with
  | nil =>
    simp only [Memory.write]
    split <;> simp_all [Memory.wf]
  | cons x m ih =>
    obtain ⟨b, v⟩ := x
    obtain ⟨hs, hz⟩ := hm
    have hs' := List.pairwise_cons.mp hs
    have hm' : Memory.wf m := ⟨hs'.2, fun c hc => hz c (List.mem_cons_of_mem _ hc)⟩
    simp only [Memory.write]
    split
    · rename_i hab
      split
      · exact ⟨hs, hz⟩
      · refine ⟨List.pairwise_cons.mpr ⟨fun c hc => ?_, hs⟩, fun c hc => ?_⟩
        · rcases List.mem_cons.mp hc with rfl | hc
          · exact hab
          · exact Nat.lt_trans hab (hs'.1 c hc)
        · rcases List.mem_cons.mp hc with rfl | hc
          · assumption
          · exact hz c hc
    · split
      · rename_i hab
        subst hab
        split
        · exact hm'
        · refine ⟨List.pairwise_cons.mpr ⟨fun c hc => hs'.1 c hc, hs'.2⟩, fun c hc => ?_⟩
          rcases List.mem_cons.mp hc with rfl | hc
          · assumption
          · exact hm'.2 c hc
      · rename_i h1 h2
        obtain ⟨is, iz⟩ := ih hm'
        refine ⟨List.pairwise_cons.mpr ⟨fun c hc => ?_, is⟩, fun c hc => ?_⟩
        · rcases Memory.mem_write hc with rfl | hc
          · show b < a
            omega
          · exact hs'.1 c hc
        · rcases List.mem_cons.mp hc with rfl | hc
          · exact hz _ List.mem_cons_self
          · exact iz c hc

/-- MOVE's copy keeps the canonical form. -/
theorem moveWords_wf {m : Memory} {src dst n : Nat} (hm : m.wf) : (moveWords src dst n m).wf := by
  induction n generalizing src dst m with
  | zero => exact hm
  | succ n ih => exact ih (Memory.write_wf hm)

/-- MOVE's copy writes no address from `dst + n` on. -/
theorem moveWords_below {m : Memory} {src dst n k : Nat} (hm : m.below k) (hd : n ≠ 0 → dst + n ≤ k) :
    (moveWords src dst n m).below k := by
  induction n generalizing src dst m with
  | zero => exact hm
  | succ n ih =>
    have := hd (Nat.succ_ne_zero n)
    exact ih (Memory.write_below hm (by omega)) (fun _ => by omega)

/-- IN keeps the canonical form and the bound on addresses. -/
theorem inputCells_wf {p : Params} {u : BitVec 6} {a : Int} {cs : List (Nat × Word)} {m : Memory}
    (hm : m.wf) (hb : m.below p.memSize) :
    (inputCells p u a cs m).wf ∧ (inputCells p u a cs m).below p.memSize := by
  induction cs generalizing m with
  | nil => exact ⟨hm, hb⟩
  | cons c cs ih =>
    obtain ⟨x, w⟩ := c
    simp only [inputCells]
    split
    · rename_i h
      simp only [Bool.and_eq_true, decide_eq_true_eq] at h
      exact ih (Memory.write_wf hm) (Memory.write_below hb h.1)
    · exact ih hm hb

/-- Every address of an image's memory is one of the image's own. -/
theorem imageMemory_range {image : List Nat} {a : Nat} {c : Nat × Word} (h : c ∈ imageMemory a image) :
    a ≤ c.1 ∧ c.1 < a + image.length := by
  induction image generalizing a with
  | nil => simp [imageMemory] at h
  | cons n rest ih =>
    simp only [imageMemory] at h
    split at h
    · have := ih h
      simp only [List.length_cons]
      omega
    · rcases List.mem_cons.mp h with rfl | h
      · simp
      · have := ih h
        simp only [List.length_cons]
        omega

/-- An image's memory has the canonical form. -/
theorem imageMemory_wf (a : Nat) (image : List Nat) : (imageMemory a image).wf := by
  induction image generalizing a with
  | nil => exact ⟨List.Pairwise.nil, by simp [imageMemory]⟩
  | cons n rest ih =>
    simp only [imageMemory]
    split
    · exact ih (a + 1)
    · rename_i hz
      refine ⟨List.pairwise_cons.mpr ⟨fun c hc => (imageMemory_range hc).1, (ih (a + 1)).1⟩, fun c hc => ?_⟩
      rcases List.mem_cons.mp hc with rfl | hc
      · exact hz
      · exact (ih (a + 1)).2 c hc

/-- An address below every listed one reads +0. -/
theorem Memory.read_of_lt {m : Memory} {a : Nat} (h : ∀ c ∈ m, a < c.1) : m.read a = Word.zero := by
  induction m with
  | nil => rfl
  | cons x m ih =>
    obtain ⟨b, v⟩ := x
    have hb : a < b := h (b, v) List.mem_cons_self
    simp only [Memory.read, if_neg (Nat.ne_of_lt hb)]
    exact ih fun c hc => h c (List.mem_cons_of_mem _ hc)

/-- Reset memory has the canonical form. -/
theorem State.reset_mem_wf : Memory.wf State.reset.mem ∧ Memory.below State.reset.mem 4000 := by decide

end Sys2Proof.Machine
end

