-- ==== Sys2Proof/Laws/State.lean ====
section
/-! SUPPORT. What each update of the state does to each field: one lemma per field per update. -/

namespace Sys2Proof.Machine
namespace State

@[simp] theorem setRA_rA (s : State) (w : Word) : (s.setRA w).rA = w := rfl
@[simp] theorem setRA_rX (s : State) (w : Word) : (s.setRA w).rX = s.rX := rfl
@[simp] theorem setRA_rI1 (s : State) (w : Word) : (s.setRA w).rI1 = s.rI1 := rfl
@[simp] theorem setRA_rI2 (s : State) (w : Word) : (s.setRA w).rI2 = s.rI2 := rfl
@[simp] theorem setRA_rI3 (s : State) (w : Word) : (s.setRA w).rI3 = s.rI3 := rfl
@[simp] theorem setRA_rI4 (s : State) (w : Word) : (s.setRA w).rI4 = s.rI4 := rfl
@[simp] theorem setRA_rI5 (s : State) (w : Word) : (s.setRA w).rI5 = s.rI5 := rfl
@[simp] theorem setRA_rI6 (s : State) (w : Word) : (s.setRA w).rI6 = s.rI6 := rfl
@[simp] theorem setRA_rJ (s : State) (w : Word) : (s.setRA w).rJ = s.rJ := rfl
@[simp] theorem setRA_ov (s : State) (w : Word) : (s.setRA w).ov = s.ov := rfl
@[simp] theorem setRA_ci (s : State) (w : Word) : (s.setRA w).ci = s.ci := rfl
@[simp] theorem setRA_pc (s : State) (w : Word) : (s.setRA w).pc = s.pc := rfl
@[simp] theorem setRA_runState (s : State) (w : Word) : (s.setRA w).runState = s.runState := rfl
@[simp] theorem setRA_log (s : State) (w : Word) : (s.setRA w).log = s.log := rfl
@[simp] theorem setRA_mem (s : State) (w : Word) : (s.setRA w).mem = s.mem := rfl
@[simp] theorem setRA_params (s : State) (w : Word) : (s.setRA w).params = s.params := rfl
@[simp] theorem setRA_oracle (s : State) (w : Word) : (s.setRA w).oracle = s.oracle := rfl
@[simp] theorem setRA_calls (s : State) (w : Word) : (s.setRA w).calls = s.calls := rfl
@[simp] theorem setRA_draws (s : State) (w : Word) : (s.setRA w).draws = s.draws := rfl
@[simp] theorem setRA_index (s : State) (w : Word) (k : IndexReg) : (s.setRA w).index k = s.index k := by
  cases k <;> rfl

@[simp] theorem setRX_rA (s : State) (w : Word) : (s.setRX w).rA = s.rA := rfl
@[simp] theorem setRX_rX (s : State) (w : Word) : (s.setRX w).rX = w := rfl
@[simp] theorem setRX_rI1 (s : State) (w : Word) : (s.setRX w).rI1 = s.rI1 := rfl
@[simp] theorem setRX_rI2 (s : State) (w : Word) : (s.setRX w).rI2 = s.rI2 := rfl
@[simp] theorem setRX_rI3 (s : State) (w : Word) : (s.setRX w).rI3 = s.rI3 := rfl
@[simp] theorem setRX_rI4 (s : State) (w : Word) : (s.setRX w).rI4 = s.rI4 := rfl
@[simp] theorem setRX_rI5 (s : State) (w : Word) : (s.setRX w).rI5 = s.rI5 := rfl
@[simp] theorem setRX_rI6 (s : State) (w : Word) : (s.setRX w).rI6 = s.rI6 := rfl
@[simp] theorem setRX_rJ (s : State) (w : Word) : (s.setRX w).rJ = s.rJ := rfl
@[simp] theorem setRX_ov (s : State) (w : Word) : (s.setRX w).ov = s.ov := rfl
@[simp] theorem setRX_ci (s : State) (w : Word) : (s.setRX w).ci = s.ci := rfl
@[simp] theorem setRX_pc (s : State) (w : Word) : (s.setRX w).pc = s.pc := rfl
@[simp] theorem setRX_runState (s : State) (w : Word) : (s.setRX w).runState = s.runState := rfl
@[simp] theorem setRX_log (s : State) (w : Word) : (s.setRX w).log = s.log := rfl
@[simp] theorem setRX_mem (s : State) (w : Word) : (s.setRX w).mem = s.mem := rfl
@[simp] theorem setRX_params (s : State) (w : Word) : (s.setRX w).params = s.params := rfl
@[simp] theorem setRX_oracle (s : State) (w : Word) : (s.setRX w).oracle = s.oracle := rfl
@[simp] theorem setRX_calls (s : State) (w : Word) : (s.setRX w).calls = s.calls := rfl
@[simp] theorem setRX_draws (s : State) (w : Word) : (s.setRX w).draws = s.draws := rfl
@[simp] theorem setRX_index (s : State) (w : Word) (k : IndexReg) : (s.setRX w).index k = s.index k := by
  cases k <;> rfl

@[simp] theorem setJ_rA (s : State) (j : BitVec 12) : (s.setJ j).rA = s.rA := rfl
@[simp] theorem setJ_rX (s : State) (j : BitVec 12) : (s.setJ j).rX = s.rX := rfl
@[simp] theorem setJ_rI1 (s : State) (j : BitVec 12) : (s.setJ j).rI1 = s.rI1 := rfl
@[simp] theorem setJ_rI2 (s : State) (j : BitVec 12) : (s.setJ j).rI2 = s.rI2 := rfl
@[simp] theorem setJ_rI3 (s : State) (j : BitVec 12) : (s.setJ j).rI3 = s.rI3 := rfl
@[simp] theorem setJ_rI4 (s : State) (j : BitVec 12) : (s.setJ j).rI4 = s.rI4 := rfl
@[simp] theorem setJ_rI5 (s : State) (j : BitVec 12) : (s.setJ j).rI5 = s.rI5 := rfl
@[simp] theorem setJ_rI6 (s : State) (j : BitVec 12) : (s.setJ j).rI6 = s.rI6 := rfl
@[simp] theorem setJ_rJ (s : State) (j : BitVec 12) : (s.setJ j).rJ = j := rfl
@[simp] theorem setJ_ov (s : State) (j : BitVec 12) : (s.setJ j).ov = s.ov := rfl
@[simp] theorem setJ_ci (s : State) (j : BitVec 12) : (s.setJ j).ci = s.ci := rfl
@[simp] theorem setJ_pc (s : State) (j : BitVec 12) : (s.setJ j).pc = s.pc := rfl
@[simp] theorem setJ_runState (s : State) (j : BitVec 12) : (s.setJ j).runState = s.runState := rfl
@[simp] theorem setJ_log (s : State) (j : BitVec 12) : (s.setJ j).log = s.log := rfl
@[simp] theorem setJ_mem (s : State) (j : BitVec 12) : (s.setJ j).mem = s.mem := rfl
@[simp] theorem setJ_params (s : State) (j : BitVec 12) : (s.setJ j).params = s.params := rfl
@[simp] theorem setJ_oracle (s : State) (j : BitVec 12) : (s.setJ j).oracle = s.oracle := rfl
@[simp] theorem setJ_calls (s : State) (j : BitVec 12) : (s.setJ j).calls = s.calls := rfl
@[simp] theorem setJ_draws (s : State) (j : BitVec 12) : (s.setJ j).draws = s.draws := rfl
@[simp] theorem setJ_index (s : State) (j : BitVec 12) (k : IndexReg) : (s.setJ j).index k = s.index k := by
  cases k <;> rfl

@[simp] theorem setOv_rA (s : State) (b : Bool) : (s.setOv b).rA = s.rA := rfl
@[simp] theorem setOv_rX (s : State) (b : Bool) : (s.setOv b).rX = s.rX := rfl
@[simp] theorem setOv_rI1 (s : State) (b : Bool) : (s.setOv b).rI1 = s.rI1 := rfl
@[simp] theorem setOv_rI2 (s : State) (b : Bool) : (s.setOv b).rI2 = s.rI2 := rfl
@[simp] theorem setOv_rI3 (s : State) (b : Bool) : (s.setOv b).rI3 = s.rI3 := rfl
@[simp] theorem setOv_rI4 (s : State) (b : Bool) : (s.setOv b).rI4 = s.rI4 := rfl
@[simp] theorem setOv_rI5 (s : State) (b : Bool) : (s.setOv b).rI5 = s.rI5 := rfl
@[simp] theorem setOv_rI6 (s : State) (b : Bool) : (s.setOv b).rI6 = s.rI6 := rfl
@[simp] theorem setOv_rJ (s : State) (b : Bool) : (s.setOv b).rJ = s.rJ := rfl
@[simp] theorem setOv_ov (s : State) (b : Bool) : (s.setOv b).ov = b := rfl
@[simp] theorem setOv_ci (s : State) (b : Bool) : (s.setOv b).ci = s.ci := rfl
@[simp] theorem setOv_pc (s : State) (b : Bool) : (s.setOv b).pc = s.pc := rfl
@[simp] theorem setOv_runState (s : State) (b : Bool) : (s.setOv b).runState = s.runState := rfl
@[simp] theorem setOv_log (s : State) (b : Bool) : (s.setOv b).log = s.log := rfl
@[simp] theorem setOv_mem (s : State) (b : Bool) : (s.setOv b).mem = s.mem := rfl
@[simp] theorem setOv_params (s : State) (b : Bool) : (s.setOv b).params = s.params := rfl
@[simp] theorem setOv_oracle (s : State) (b : Bool) : (s.setOv b).oracle = s.oracle := rfl
@[simp] theorem setOv_calls (s : State) (b : Bool) : (s.setOv b).calls = s.calls := rfl
@[simp] theorem setOv_draws (s : State) (b : Bool) : (s.setOv b).draws = s.draws := rfl
@[simp] theorem setOv_index (s : State) (b : Bool) (k : IndexReg) : (s.setOv b).index k = s.index k := by
  cases k <;> rfl

@[simp] theorem setCi_rA (s : State) (c : Comparison) : (s.setCi c).rA = s.rA := rfl
@[simp] theorem setCi_rX (s : State) (c : Comparison) : (s.setCi c).rX = s.rX := rfl
@[simp] theorem setCi_rI1 (s : State) (c : Comparison) : (s.setCi c).rI1 = s.rI1 := rfl
@[simp] theorem setCi_rI2 (s : State) (c : Comparison) : (s.setCi c).rI2 = s.rI2 := rfl
@[simp] theorem setCi_rI3 (s : State) (c : Comparison) : (s.setCi c).rI3 = s.rI3 := rfl
@[simp] theorem setCi_rI4 (s : State) (c : Comparison) : (s.setCi c).rI4 = s.rI4 := rfl
@[simp] theorem setCi_rI5 (s : State) (c : Comparison) : (s.setCi c).rI5 = s.rI5 := rfl
@[simp] theorem setCi_rI6 (s : State) (c : Comparison) : (s.setCi c).rI6 = s.rI6 := rfl
@[simp] theorem setCi_rJ (s : State) (c : Comparison) : (s.setCi c).rJ = s.rJ := rfl
@[simp] theorem setCi_ov (s : State) (c : Comparison) : (s.setCi c).ov = s.ov := rfl
@[simp] theorem setCi_ci (s : State) (c : Comparison) : (s.setCi c).ci = c := rfl
@[simp] theorem setCi_pc (s : State) (c : Comparison) : (s.setCi c).pc = s.pc := rfl
@[simp] theorem setCi_runState (s : State) (c : Comparison) : (s.setCi c).runState = s.runState := rfl
@[simp] theorem setCi_log (s : State) (c : Comparison) : (s.setCi c).log = s.log := rfl
@[simp] theorem setCi_mem (s : State) (c : Comparison) : (s.setCi c).mem = s.mem := rfl
@[simp] theorem setCi_params (s : State) (c : Comparison) : (s.setCi c).params = s.params := rfl
@[simp] theorem setCi_oracle (s : State) (c : Comparison) : (s.setCi c).oracle = s.oracle := rfl
@[simp] theorem setCi_calls (s : State) (c : Comparison) : (s.setCi c).calls = s.calls := rfl
@[simp] theorem setCi_draws (s : State) (c : Comparison) : (s.setCi c).draws = s.draws := rfl
@[simp] theorem setCi_index (s : State) (c : Comparison) (k : IndexReg) : (s.setCi c).index k = s.index k := by
  cases k <;> rfl

@[simp] theorem setPc_rA (s : State) (p : BitVec 13) : (s.setPc p).rA = s.rA := rfl
@[simp] theorem setPc_rX (s : State) (p : BitVec 13) : (s.setPc p).rX = s.rX := rfl
@[simp] theorem setPc_rI1 (s : State) (p : BitVec 13) : (s.setPc p).rI1 = s.rI1 := rfl
@[simp] theorem setPc_rI2 (s : State) (p : BitVec 13) : (s.setPc p).rI2 = s.rI2 := rfl
@[simp] theorem setPc_rI3 (s : State) (p : BitVec 13) : (s.setPc p).rI3 = s.rI3 := rfl
@[simp] theorem setPc_rI4 (s : State) (p : BitVec 13) : (s.setPc p).rI4 = s.rI4 := rfl
@[simp] theorem setPc_rI5 (s : State) (p : BitVec 13) : (s.setPc p).rI5 = s.rI5 := rfl
@[simp] theorem setPc_rI6 (s : State) (p : BitVec 13) : (s.setPc p).rI6 = s.rI6 := rfl
@[simp] theorem setPc_rJ (s : State) (p : BitVec 13) : (s.setPc p).rJ = s.rJ := rfl
@[simp] theorem setPc_ov (s : State) (p : BitVec 13) : (s.setPc p).ov = s.ov := rfl
@[simp] theorem setPc_ci (s : State) (p : BitVec 13) : (s.setPc p).ci = s.ci := rfl
@[simp] theorem setPc_pc (s : State) (p : BitVec 13) : (s.setPc p).pc = p := rfl
@[simp] theorem setPc_runState (s : State) (p : BitVec 13) : (s.setPc p).runState = s.runState := rfl
@[simp] theorem setPc_log (s : State) (p : BitVec 13) : (s.setPc p).log = s.log := rfl
@[simp] theorem setPc_mem (s : State) (p : BitVec 13) : (s.setPc p).mem = s.mem := rfl
@[simp] theorem setPc_params (s : State) (p : BitVec 13) : (s.setPc p).params = s.params := rfl
@[simp] theorem setPc_oracle (s : State) (p : BitVec 13) : (s.setPc p).oracle = s.oracle := rfl
@[simp] theorem setPc_calls (s : State) (p : BitVec 13) : (s.setPc p).calls = s.calls := rfl
@[simp] theorem setPc_draws (s : State) (p : BitVec 13) : (s.setPc p).draws = s.draws := rfl
@[simp] theorem setPc_index (s : State) (p : BitVec 13) (k : IndexReg) : (s.setPc p).index k = s.index k := by
  cases k <;> rfl

@[simp] theorem setRun_rA (s : State) (r : RunState) : (s.setRun r).rA = s.rA := rfl
@[simp] theorem setRun_rX (s : State) (r : RunState) : (s.setRun r).rX = s.rX := rfl
@[simp] theorem setRun_rI1 (s : State) (r : RunState) : (s.setRun r).rI1 = s.rI1 := rfl
@[simp] theorem setRun_rI2 (s : State) (r : RunState) : (s.setRun r).rI2 = s.rI2 := rfl
@[simp] theorem setRun_rI3 (s : State) (r : RunState) : (s.setRun r).rI3 = s.rI3 := rfl
@[simp] theorem setRun_rI4 (s : State) (r : RunState) : (s.setRun r).rI4 = s.rI4 := rfl
@[simp] theorem setRun_rI5 (s : State) (r : RunState) : (s.setRun r).rI5 = s.rI5 := rfl
@[simp] theorem setRun_rI6 (s : State) (r : RunState) : (s.setRun r).rI6 = s.rI6 := rfl
@[simp] theorem setRun_rJ (s : State) (r : RunState) : (s.setRun r).rJ = s.rJ := rfl
@[simp] theorem setRun_ov (s : State) (r : RunState) : (s.setRun r).ov = s.ov := rfl
@[simp] theorem setRun_ci (s : State) (r : RunState) : (s.setRun r).ci = s.ci := rfl
@[simp] theorem setRun_pc (s : State) (r : RunState) : (s.setRun r).pc = s.pc := rfl
@[simp] theorem setRun_runState (s : State) (r : RunState) : (s.setRun r).runState = r := rfl
@[simp] theorem setRun_log (s : State) (r : RunState) : (s.setRun r).log = s.log := rfl
@[simp] theorem setRun_mem (s : State) (r : RunState) : (s.setRun r).mem = s.mem := rfl
@[simp] theorem setRun_params (s : State) (r : RunState) : (s.setRun r).params = s.params := rfl
@[simp] theorem setRun_oracle (s : State) (r : RunState) : (s.setRun r).oracle = s.oracle := rfl
@[simp] theorem setRun_calls (s : State) (r : RunState) : (s.setRun r).calls = s.calls := rfl
@[simp] theorem setRun_draws (s : State) (r : RunState) : (s.setRun r).draws = s.draws := rfl
@[simp] theorem setRun_index (s : State) (r : RunState) (k : IndexReg) : (s.setRun r).index k = s.index k := by
  cases k <;> rfl

@[simp] theorem setMem_rA (s : State) (m : Memory) : (s.setMem m).rA = s.rA := rfl
@[simp] theorem setMem_rX (s : State) (m : Memory) : (s.setMem m).rX = s.rX := rfl
@[simp] theorem setMem_rI1 (s : State) (m : Memory) : (s.setMem m).rI1 = s.rI1 := rfl
@[simp] theorem setMem_rI2 (s : State) (m : Memory) : (s.setMem m).rI2 = s.rI2 := rfl
@[simp] theorem setMem_rI3 (s : State) (m : Memory) : (s.setMem m).rI3 = s.rI3 := rfl
@[simp] theorem setMem_rI4 (s : State) (m : Memory) : (s.setMem m).rI4 = s.rI4 := rfl
@[simp] theorem setMem_rI5 (s : State) (m : Memory) : (s.setMem m).rI5 = s.rI5 := rfl
@[simp] theorem setMem_rI6 (s : State) (m : Memory) : (s.setMem m).rI6 = s.rI6 := rfl
@[simp] theorem setMem_rJ (s : State) (m : Memory) : (s.setMem m).rJ = s.rJ := rfl
@[simp] theorem setMem_ov (s : State) (m : Memory) : (s.setMem m).ov = s.ov := rfl
@[simp] theorem setMem_ci (s : State) (m : Memory) : (s.setMem m).ci = s.ci := rfl
@[simp] theorem setMem_pc (s : State) (m : Memory) : (s.setMem m).pc = s.pc := rfl
@[simp] theorem setMem_runState (s : State) (m : Memory) : (s.setMem m).runState = s.runState := rfl
@[simp] theorem setMem_log (s : State) (m : Memory) : (s.setMem m).log = s.log := rfl
@[simp] theorem setMem_mem (s : State) (m : Memory) : (s.setMem m).mem = m := rfl
@[simp] theorem setMem_params (s : State) (m : Memory) : (s.setMem m).params = s.params := rfl
@[simp] theorem setMem_oracle (s : State) (m : Memory) : (s.setMem m).oracle = s.oracle := rfl
@[simp] theorem setMem_calls (s : State) (m : Memory) : (s.setMem m).calls = s.calls := rfl
@[simp] theorem setMem_draws (s : State) (m : Memory) : (s.setMem m).draws = s.draws := rfl
@[simp] theorem setMem_index (s : State) (m : Memory) (k : IndexReg) : (s.setMem m).index k = s.index k := by
  cases k <;> rfl

@[simp] theorem record_rA (s : State) (e : Event) : (s.record e).rA = s.rA := rfl
@[simp] theorem record_rX (s : State) (e : Event) : (s.record e).rX = s.rX := rfl
@[simp] theorem record_rI1 (s : State) (e : Event) : (s.record e).rI1 = s.rI1 := rfl
@[simp] theorem record_rI2 (s : State) (e : Event) : (s.record e).rI2 = s.rI2 := rfl
@[simp] theorem record_rI3 (s : State) (e : Event) : (s.record e).rI3 = s.rI3 := rfl
@[simp] theorem record_rI4 (s : State) (e : Event) : (s.record e).rI4 = s.rI4 := rfl
@[simp] theorem record_rI5 (s : State) (e : Event) : (s.record e).rI5 = s.rI5 := rfl
@[simp] theorem record_rI6 (s : State) (e : Event) : (s.record e).rI6 = s.rI6 := rfl
@[simp] theorem record_rJ (s : State) (e : Event) : (s.record e).rJ = s.rJ := rfl
@[simp] theorem record_ov (s : State) (e : Event) : (s.record e).ov = s.ov := rfl
@[simp] theorem record_ci (s : State) (e : Event) : (s.record e).ci = s.ci := rfl
@[simp] theorem record_pc (s : State) (e : Event) : (s.record e).pc = s.pc := rfl
@[simp] theorem record_runState (s : State) (e : Event) : (s.record e).runState = s.runState := rfl
@[simp] theorem record_log (s : State) (e : Event) : (s.record e).log = s.log ++ [⟨e, s.pc⟩] := rfl
@[simp] theorem record_mem (s : State) (e : Event) : (s.record e).mem = s.mem := rfl
@[simp] theorem record_params (s : State) (e : Event) : (s.record e).params = s.params := rfl
@[simp] theorem record_oracle (s : State) (e : Event) : (s.record e).oracle = s.oracle := rfl
@[simp] theorem record_calls (s : State) (e : Event) : (s.record e).calls = s.calls := rfl
@[simp] theorem record_draws (s : State) (e : Event) : (s.record e).draws = s.draws := rfl
@[simp] theorem record_index (s : State) (e : Event) (k : IndexReg) : (s.record e).index k = s.index k := by
  cases k <;> rfl

@[simp] theorem answered_rA (s : State) : (s.answered).rA = s.rA := rfl
@[simp] theorem answered_rX (s : State) : (s.answered).rX = s.rX := rfl
@[simp] theorem answered_rI1 (s : State) : (s.answered).rI1 = s.rI1 := rfl
@[simp] theorem answered_rI2 (s : State) : (s.answered).rI2 = s.rI2 := rfl
@[simp] theorem answered_rI3 (s : State) : (s.answered).rI3 = s.rI3 := rfl
@[simp] theorem answered_rI4 (s : State) : (s.answered).rI4 = s.rI4 := rfl
@[simp] theorem answered_rI5 (s : State) : (s.answered).rI5 = s.rI5 := rfl
@[simp] theorem answered_rI6 (s : State) : (s.answered).rI6 = s.rI6 := rfl
@[simp] theorem answered_rJ (s : State) : (s.answered).rJ = s.rJ := rfl
@[simp] theorem answered_ov (s : State) : (s.answered).ov = s.ov := rfl
@[simp] theorem answered_ci (s : State) : (s.answered).ci = s.ci := rfl
@[simp] theorem answered_pc (s : State) : (s.answered).pc = s.pc := rfl
@[simp] theorem answered_runState (s : State) : (s.answered).runState = s.runState := rfl
@[simp] theorem answered_log (s : State) : (s.answered).log = s.log := rfl
@[simp] theorem answered_mem (s : State) : (s.answered).mem = s.mem := rfl
@[simp] theorem answered_params (s : State) : (s.answered).params = s.params := rfl
@[simp] theorem answered_oracle (s : State) : (s.answered).oracle = s.oracle.tail := rfl
@[simp] theorem answered_calls (s : State) : (s.answered).calls = s.calls + 1 := rfl
@[simp] theorem answered_draws (s : State) : (s.answered).draws = s.draws := rfl
@[simp] theorem answered_index (s : State)  (k : IndexReg) : (s.answered).index k = s.index k := by
  cases k <;> rfl

@[simp] theorem drawn_rA (s : State) : (s.drawn).rA = s.rA := rfl
@[simp] theorem drawn_rX (s : State) : (s.drawn).rX = s.rX := rfl
@[simp] theorem drawn_rI1 (s : State) : (s.drawn).rI1 = s.rI1 := rfl
@[simp] theorem drawn_rI2 (s : State) : (s.drawn).rI2 = s.rI2 := rfl
@[simp] theorem drawn_rI3 (s : State) : (s.drawn).rI3 = s.rI3 := rfl
@[simp] theorem drawn_rI4 (s : State) : (s.drawn).rI4 = s.rI4 := rfl
@[simp] theorem drawn_rI5 (s : State) : (s.drawn).rI5 = s.rI5 := rfl
@[simp] theorem drawn_rI6 (s : State) : (s.drawn).rI6 = s.rI6 := rfl
@[simp] theorem drawn_rJ (s : State) : (s.drawn).rJ = s.rJ := rfl
@[simp] theorem drawn_ov (s : State) : (s.drawn).ov = s.ov := rfl
@[simp] theorem drawn_ci (s : State) : (s.drawn).ci = s.ci := rfl
@[simp] theorem drawn_pc (s : State) : (s.drawn).pc = s.pc := rfl
@[simp] theorem drawn_runState (s : State) : (s.drawn).runState = s.runState := rfl
@[simp] theorem drawn_log (s : State) : (s.drawn).log = s.log := rfl
@[simp] theorem drawn_mem (s : State) : (s.drawn).mem = s.mem := rfl
@[simp] theorem drawn_params (s : State) : (s.drawn).params = s.params := rfl
@[simp] theorem drawn_oracle (s : State) : (s.drawn).oracle = s.oracle := rfl
@[simp] theorem drawn_calls (s : State) : (s.drawn).calls = s.calls := rfl
@[simp] theorem drawn_draws (s : State) : (s.drawn).draws = s.draws + 1 := rfl
@[simp] theorem drawn_index (s : State)  (k : IndexReg) : (s.drawn).index k = s.index k := by
  cases k <;> rfl

@[simp] theorem setIndex_rA (s : State) (k : IndexReg) (w : IndexWord) : (s.setIndex k w).rA = s.rA := by
  cases k <;> rfl
@[simp] theorem setIndex_rX (s : State) (k : IndexReg) (w : IndexWord) : (s.setIndex k w).rX = s.rX := by
  cases k <;> rfl
@[simp] theorem setIndex_rJ (s : State) (k : IndexReg) (w : IndexWord) : (s.setIndex k w).rJ = s.rJ := by
  cases k <;> rfl
@[simp] theorem setIndex_ov (s : State) (k : IndexReg) (w : IndexWord) : (s.setIndex k w).ov = s.ov := by
  cases k <;> rfl
@[simp] theorem setIndex_ci (s : State) (k : IndexReg) (w : IndexWord) : (s.setIndex k w).ci = s.ci := by
  cases k <;> rfl
@[simp] theorem setIndex_pc (s : State) (k : IndexReg) (w : IndexWord) : (s.setIndex k w).pc = s.pc := by
  cases k <;> rfl
@[simp] theorem setIndex_runState (s : State) (k : IndexReg) (w : IndexWord) : (s.setIndex k w).runState = s.runState := by
  cases k <;> rfl
@[simp] theorem setIndex_log (s : State) (k : IndexReg) (w : IndexWord) : (s.setIndex k w).log = s.log := by
  cases k <;> rfl
@[simp] theorem setIndex_mem (s : State) (k : IndexReg) (w : IndexWord) : (s.setIndex k w).mem = s.mem := by
  cases k <;> rfl
@[simp] theorem setIndex_params (s : State) (k : IndexReg) (w : IndexWord) : (s.setIndex k w).params = s.params := by
  cases k <;> rfl
@[simp] theorem setIndex_oracle (s : State) (k : IndexReg) (w : IndexWord) : (s.setIndex k w).oracle = s.oracle := by
  cases k <;> rfl
@[simp] theorem setIndex_calls (s : State) (k : IndexReg) (w : IndexWord) : (s.setIndex k w).calls = s.calls := by
  cases k <;> rfl
@[simp] theorem setIndex_draws (s : State) (k : IndexReg) (w : IndexWord) : (s.setIndex k w).draws = s.draws := by
  cases k <;> rfl

/-- A write of one index register is read back, and leaves the other five alone. -/
@[simp] theorem setIndex_index (s : State) (k j : IndexReg) (w : IndexWord) :
    (s.setIndex k w).index j = if j = k then w else s.index j := by
  cases k <;> cases j <;> rfl

theorem orOv_eq (s : State) (b : Bool) : s.orOv b = s.setOv (s.ov || b) := rfl

/-- The J write is a write of rJ: the return address under the policy, and rJ itself otherwise. -/
theorem writeJ_eq (s : State) (t : Bool) :
    s.writeJ t = s.setJ (if s.params.jWrite = .always ∨ t = true then s.link else s.rJ) := by
  unfold writeJ
  cases s.params.jWrite <;> cases t <;> rfl

@[simp] theorem writeJ_rA (s : State) (t : Bool) : (s.writeJ t).rA = s.rA := by
  simp [writeJ_eq]
@[simp] theorem writeJ_rX (s : State) (t : Bool) : (s.writeJ t).rX = s.rX := by
  simp [writeJ_eq]
@[simp] theorem writeJ_rI1 (s : State) (t : Bool) : (s.writeJ t).rI1 = s.rI1 := by
  simp [writeJ_eq]
@[simp] theorem writeJ_rI2 (s : State) (t : Bool) : (s.writeJ t).rI2 = s.rI2 := by
  simp [writeJ_eq]
@[simp] theorem writeJ_rI3 (s : State) (t : Bool) : (s.writeJ t).rI3 = s.rI3 := by
  simp [writeJ_eq]
@[simp] theorem writeJ_rI4 (s : State) (t : Bool) : (s.writeJ t).rI4 = s.rI4 := by
  simp [writeJ_eq]
@[simp] theorem writeJ_rI5 (s : State) (t : Bool) : (s.writeJ t).rI5 = s.rI5 := by
  simp [writeJ_eq]
@[simp] theorem writeJ_rI6 (s : State) (t : Bool) : (s.writeJ t).rI6 = s.rI6 := by
  simp [writeJ_eq]
@[simp] theorem writeJ_ov (s : State) (t : Bool) : (s.writeJ t).ov = s.ov := by
  simp [writeJ_eq]
@[simp] theorem writeJ_ci (s : State) (t : Bool) : (s.writeJ t).ci = s.ci := by
  simp [writeJ_eq]
@[simp] theorem writeJ_pc (s : State) (t : Bool) : (s.writeJ t).pc = s.pc := by
  simp [writeJ_eq]
@[simp] theorem writeJ_runState (s : State) (t : Bool) : (s.writeJ t).runState = s.runState := by
  simp [writeJ_eq]
@[simp] theorem writeJ_log (s : State) (t : Bool) : (s.writeJ t).log = s.log := by
  simp [writeJ_eq]
@[simp] theorem writeJ_mem (s : State) (t : Bool) : (s.writeJ t).mem = s.mem := by
  simp [writeJ_eq]
@[simp] theorem writeJ_params (s : State) (t : Bool) : (s.writeJ t).params = s.params := by
  simp [writeJ_eq]
@[simp] theorem writeJ_oracle (s : State) (t : Bool) : (s.writeJ t).oracle = s.oracle := by
  simp [writeJ_eq]
@[simp] theorem writeJ_calls (s : State) (t : Bool) : (s.writeJ t).calls = s.calls := by
  simp [writeJ_eq]
@[simp] theorem writeJ_draws (s : State) (t : Bool) : (s.writeJ t).draws = s.draws := by
  simp [writeJ_eq]
@[simp] theorem writeJ_index (s : State) (t : Bool) (k : IndexReg) : (s.writeJ t).index k = s.index k := by
  simp [writeJ_eq]

/-- Whether an address is in memory depends on MEM_SIZE alone. -/
theorem inMemory_iff (s : State) (a : Int) : s.inMemory a = true ↔ 0 ≤ a ∧ a < (s.params.memSize : Int) := by
  simp [inMemory]

end State
end Sys2Proof.Machine
end

