-- ==== Sys2Proof/Laws/Ops.lean ====
section
/-! SUPPORT. What each shared operation can answer, said once. -/

namespace Sys2Proof.Machine

variable {s t after : State}

theorem raise_next {e : Event} (h : raise e s = .next t) : t = s.setRun (.faulted e s.pc) := by
  simpa [raise] using h.symm

theorem refuse_next {c f : BitVec 6} (h : refuse c f s = .next t) : t = s.setRun (.refused s.pc c f) := by
  simpa [refuse] using h.symm

theorem complete_next (h : complete s = .next t) : t = s.setPc (s.pc + 1) := by
  simpa [complete] using h.symm

theorem halt_next (h : halt s = .next t) : t = (s.setPc (s.pc + 1)).setRun .halted := by
  simpa [halt] using h.symm

/-- A FieldError is skipped and logged, or ends the run with no other change. -/
theorem fieldError_next {f : BitVec 6} (h : fieldError f s = .next t) :
    (s.params.fieldError = .skip ∧ t = (s.record (.fieldError f)).setPc (s.pc + 1)) ∨
      (s.params.fieldError = .stop ∧ t = s.setRun (.faulted (.fieldError f) s.pc)) := by
  unfold fieldError at h
  split at h
  · exact .inl ⟨‹_›, complete_next h⟩
  · exact .inr ⟨‹_›, raise_next h⟩

/-- A checked address is in memory, or the answer is an AddressFault with no change. -/
theorem checked_next {a : Int} {k : Answer} (h : checked a s k = .next t) :
    (s.inMemory a = true ∧ k = .next t) ∨
      (s.inMemory a = false ∧ t = s.setRun (.faulted (.addressFault a) s.pc)) := by
  unfold checked at h
  split at h
  · exact .inl ⟨‹_›, h⟩
  · exact .inr ⟨Bool.eq_false_of_not_eq_true ‹_›, raise_next h⟩

/-- Checked addresses are all in memory, or the answer is an AddressFault for one that is not. -/
theorem checkedAll_next {as : List Int} {k : Answer} (h : checkedAll as s k = .next t) :
    ((∀ a ∈ as, s.inMemory a = true) ∧ k = .next t) ∨
      ∃ a ∈ as, s.inMemory a = false ∧ t = s.setRun (.faulted (.addressFault a) s.pc) := by
  unfold checkedAll at h
  split at h
  · rename_i a ha
    refine .inr ⟨a, List.mem_of_find?_eq_some ha, ?_, raise_next h⟩
    simpa using List.find?_some ha
  · rename_i ha
    refine .inl ⟨fun a hm => ?_, h⟩
    simpa using List.find?_eq_none.mp ha a hm

/-- The operand is the word at M, or M is outside memory. -/
theorem withOperand_next {a : Address} {k : Word → Answer} (h : withOperand a s k = .next t) :
    (s.inMemory (effective a s) = true ∧ k (s.word (effective a s)) = .next t) ∨
      (s.inMemory (effective a s) = false ∧
        t = s.setRun (.faulted (.addressFault (effective a s)) s.pc)) :=
  checked_next h

/-- An index write completes, logs an IndexAnomaly and completes, or ends the run with no change. -/
theorem writeIndex_next {k : IndexReg} {sg : Sign} {v : Int} (h : writeIndex k sg v after s = .next t) :
    let done := after.setIndex k ⟨sg, BitVec.ofNat 12 v.natAbs⟩
    (v.natAbs < 4096 ∧ t = done.setPc (after.pc + 1)) ∨
      (4096 ≤ v.natAbs ∧ s.params.indexAnomaly = .record ∧
        t = (done.record (.indexAnomaly k v)).setPc (after.pc + 1)) ∨
      (4096 ≤ v.natAbs ∧ s.params.indexAnomaly = .stop ∧
        t = s.setRun (.faulted (.indexAnomaly k v) s.pc)) := by
  unfold writeIndex at h
  simp only at h ⊢
  split at h
  · exact .inl ⟨‹_›, by simpa using complete_next h⟩
  · have hv : 4096 ≤ v.natAbs := by omega
    split at h
    · exact .inr (.inl ⟨hv, ‹_›, by simpa using complete_next h⟩)
    · exact .inr (.inr ⟨hv, ‹_›, raise_next h⟩)

/-- A jump goes to its target, goes on at the next word, or faults on its target with no change. -/
theorem jump_next {m : Int} {taken : Bool} (h : jump m taken after s = .next t) :
    (taken = true ∧ s.inMemory m = true ∧ t = after.setPc (BitVec.ofNat 13 m.toNat)) ∨
      (taken = false ∧ t = after.setPc (after.pc + 1)) ∨
      (taken = true ∧ s.inMemory m = false ∧ t = s.setRun (.faulted (.addressFault m) s.pc)) := by
  unfold jump at h
  split at h
  · rename_i ht
    rcases checked_next h with ⟨hm, hk⟩ | ⟨hm, hk⟩
    · exact .inl ⟨ht, hm, by simpa using hk.symm⟩
    · exact .inr (.inr ⟨ht, hm, hk⟩)
  · exact .inr (.inl ⟨Bool.eq_false_of_not_eq_true ‹_›, complete_next h⟩)

/-- A device fails with no change, or its answer goes on. -/
theorem withDevice_next {op : DeviceOp} {u : BitVec 6} {m : Int} {k : Bool → List (Nat × Word) → Answer}
    (h : withDevice op u m s k = .next t) :
    (s.deviceAnswer op u m = .fail ∧ t = s.setRun (.faulted (.deviceFault u) s.pc)) ∨
      ∃ busy cells, s.deviceAnswer op u m = .answer busy cells ∧ k busy cells = .next t := by
  unfold withDevice at h
  split at h
  · exact .inl ⟨‹_›, raise_next h⟩
  · exact .inr ⟨_, _, ‹_›, h⟩

/-- A shift goes on with its count, or the count is negative and nothing changes. -/
theorem withCount_next {a : Address} {k : Nat → Answer} (h : withCount a s k = .next t) :
    (0 ≤ effective a s ∧ k (effective a s).toNat = .next t) ∨
      (effective a s < 0 ∧ t = s.setRun (.faulted (.operandFault (effective a s)) s.pc)) := by
  unfold withCount at h
  split at h
  · exact .inr ⟨‹_›, raise_next h⟩
  · exact .inl ⟨by omega, h⟩

/-- An operand in memory is read and goes on. -/
theorem withOperand_of_inside {a : Address} {k : Word → Answer} (h : s.inMemory (effective a s) = true) :
    withOperand a s k = k (s.word (effective a s)) := by
  simp [withOperand, checked, h]

/-- Addresses that are all in memory pass their checks. -/
theorem checkedAll_of_inside {as : List Int} {k : Answer} (h : ∀ a ∈ as, s.inMemory a = true) :
    checkedAll as s k = k := by
  have hn : s.firstOutside as = none := List.find?_eq_none.mpr fun a ha => by simp [h a ha]
  simp [checkedAll, hn]

/-- A shift with a count that is not negative goes on with it. -/
theorem withCount_of_nonneg {a : Address} {k : Nat → Answer} (h : 0 ≤ effective a s) :
    withCount a s k = k (effective a s).toNat := by
  rw [withCount, if_neg (by omega)]

/-- The addresses MOVE checks. -/
theorem mem_moveAddresses {src dst x : Int} {n : Nat} :
    x ∈ moveAddresses src dst n ↔ ∃ j : Nat, j < n ∧ (x = src + j ∨ x = dst + j) := by
  simp [moveAddresses]

end Sys2Proof.Machine
end

