-- ==== Sys2Proof/Laws/PerInstr.lean ====
section
/-! SUPPORT. The family EncodeOpcode, one lemma per instruction: the word of an instruction holds the
instruction's opcode in bits 5..0 (spec 30_encoding.md R130, R136). -/

namespace Sys2Proof.Laws

/-- Bits 5..0 of the encoded word are the opcode of the instruction's row. -/
def EncodeOpcode.Statement (i : Instr) : Prop := (encode i).mag.toNat % 64 = (encodeParts i).1.toNat

theorem EncodeOpcode.nop (a : Address) (f : Field) : EncodeOpcode.Statement (.nop a f) :=
  encode_opcode _
theorem EncodeOpcode.add (a : Address) (f : Field) : EncodeOpcode.Statement (.add a f) :=
  encode_opcode _
theorem EncodeOpcode.sub (a : Address) (f : Field) : EncodeOpcode.Statement (.sub a f) :=
  encode_opcode _
theorem EncodeOpcode.mul (a : Address) (f : Field) : EncodeOpcode.Statement (.mul a f) :=
  encode_opcode _
theorem EncodeOpcode.div (a : Address) (f : Field) : EncodeOpcode.Statement (.div a f) :=
  encode_opcode _
theorem EncodeOpcode.num (a : Address) : EncodeOpcode.Statement (.num a) :=
  encode_opcode _
theorem EncodeOpcode.char (a : Address) : EncodeOpcode.Statement (.char a) :=
  encode_opcode _
theorem EncodeOpcode.hlt (a : Address) : EncodeOpcode.Statement (.hlt a) :=
  encode_opcode _
theorem EncodeOpcode.sla (a : Address) : EncodeOpcode.Statement (.sla a) :=
  encode_opcode _
theorem EncodeOpcode.sra (a : Address) : EncodeOpcode.Statement (.sra a) :=
  encode_opcode _
theorem EncodeOpcode.slax (a : Address) : EncodeOpcode.Statement (.slax a) :=
  encode_opcode _
theorem EncodeOpcode.srax (a : Address) : EncodeOpcode.Statement (.srax a) :=
  encode_opcode _
theorem EncodeOpcode.slc (a : Address) : EncodeOpcode.Statement (.slc a) :=
  encode_opcode _
theorem EncodeOpcode.src (a : Address) : EncodeOpcode.Statement (.src a) :=
  encode_opcode _
theorem EncodeOpcode.move (a : Address) (n : BitVec 6) : EncodeOpcode.Statement (.move a n) :=
  encode_opcode _
theorem EncodeOpcode.lda (a : Address) (f : Field) : EncodeOpcode.Statement (.lda a f) :=
  encode_opcode _
theorem EncodeOpcode.ld1 (a : Address) (f : Field) : EncodeOpcode.Statement (.ld1 a f) :=
  encode_opcode _
theorem EncodeOpcode.ld2 (a : Address) (f : Field) : EncodeOpcode.Statement (.ld2 a f) :=
  encode_opcode _
theorem EncodeOpcode.ld3 (a : Address) (f : Field) : EncodeOpcode.Statement (.ld3 a f) :=
  encode_opcode _
theorem EncodeOpcode.ld4 (a : Address) (f : Field) : EncodeOpcode.Statement (.ld4 a f) :=
  encode_opcode _
theorem EncodeOpcode.ld5 (a : Address) (f : Field) : EncodeOpcode.Statement (.ld5 a f) :=
  encode_opcode _
theorem EncodeOpcode.ld6 (a : Address) (f : Field) : EncodeOpcode.Statement (.ld6 a f) :=
  encode_opcode _
theorem EncodeOpcode.ldx (a : Address) (f : Field) : EncodeOpcode.Statement (.ldx a f) :=
  encode_opcode _
theorem EncodeOpcode.ldan (a : Address) (f : Field) : EncodeOpcode.Statement (.ldan a f) :=
  encode_opcode _
theorem EncodeOpcode.ld1n (a : Address) (f : Field) : EncodeOpcode.Statement (.ld1n a f) :=
  encode_opcode _
theorem EncodeOpcode.ld2n (a : Address) (f : Field) : EncodeOpcode.Statement (.ld2n a f) :=
  encode_opcode _
theorem EncodeOpcode.ld3n (a : Address) (f : Field) : EncodeOpcode.Statement (.ld3n a f) :=
  encode_opcode _
theorem EncodeOpcode.ld4n (a : Address) (f : Field) : EncodeOpcode.Statement (.ld4n a f) :=
  encode_opcode _
theorem EncodeOpcode.ld5n (a : Address) (f : Field) : EncodeOpcode.Statement (.ld5n a f) :=
  encode_opcode _
theorem EncodeOpcode.ld6n (a : Address) (f : Field) : EncodeOpcode.Statement (.ld6n a f) :=
  encode_opcode _
theorem EncodeOpcode.ldxn (a : Address) (f : Field) : EncodeOpcode.Statement (.ldxn a f) :=
  encode_opcode _
theorem EncodeOpcode.sta (a : Address) (f : Field) : EncodeOpcode.Statement (.sta a f) :=
  encode_opcode _
theorem EncodeOpcode.st1 (a : Address) (f : Field) : EncodeOpcode.Statement (.st1 a f) :=
  encode_opcode _
theorem EncodeOpcode.st2 (a : Address) (f : Field) : EncodeOpcode.Statement (.st2 a f) :=
  encode_opcode _
theorem EncodeOpcode.st3 (a : Address) (f : Field) : EncodeOpcode.Statement (.st3 a f) :=
  encode_opcode _
theorem EncodeOpcode.st4 (a : Address) (f : Field) : EncodeOpcode.Statement (.st4 a f) :=
  encode_opcode _
theorem EncodeOpcode.st5 (a : Address) (f : Field) : EncodeOpcode.Statement (.st5 a f) :=
  encode_opcode _
theorem EncodeOpcode.st6 (a : Address) (f : Field) : EncodeOpcode.Statement (.st6 a f) :=
  encode_opcode _
theorem EncodeOpcode.stx (a : Address) (f : Field) : EncodeOpcode.Statement (.stx a f) :=
  encode_opcode _
theorem EncodeOpcode.stj (a : Address) (f : Field) : EncodeOpcode.Statement (.stj a f) :=
  encode_opcode _
theorem EncodeOpcode.stz (a : Address) (f : Field) : EncodeOpcode.Statement (.stz a f) :=
  encode_opcode _
theorem EncodeOpcode.jbus (a : Address) (u : BitVec 6) : EncodeOpcode.Statement (.jbus a u) :=
  encode_opcode _
theorem EncodeOpcode.ioc (a : Address) (u : BitVec 6) : EncodeOpcode.Statement (.ioc a u) :=
  encode_opcode _
theorem EncodeOpcode.inp (a : Address) (u : BitVec 6) : EncodeOpcode.Statement (.inp a u) :=
  encode_opcode _
theorem EncodeOpcode.out (a : Address) (u : BitVec 6) : EncodeOpcode.Statement (.out a u) :=
  encode_opcode _
theorem EncodeOpcode.jred (a : Address) (u : BitVec 6) : EncodeOpcode.Statement (.jred a u) :=
  encode_opcode _
theorem EncodeOpcode.jmp (a : Address) : EncodeOpcode.Statement (.jmp a) :=
  encode_opcode _
theorem EncodeOpcode.jsj (a : Address) : EncodeOpcode.Statement (.jsj a) :=
  encode_opcode _
theorem EncodeOpcode.jov (a : Address) : EncodeOpcode.Statement (.jov a) :=
  encode_opcode _
theorem EncodeOpcode.jnov (a : Address) : EncodeOpcode.Statement (.jnov a) :=
  encode_opcode _
theorem EncodeOpcode.jl (a : Address) : EncodeOpcode.Statement (.jl a) :=
  encode_opcode _
theorem EncodeOpcode.je (a : Address) : EncodeOpcode.Statement (.je a) :=
  encode_opcode _
theorem EncodeOpcode.jg (a : Address) : EncodeOpcode.Statement (.jg a) :=
  encode_opcode _
theorem EncodeOpcode.jge (a : Address) : EncodeOpcode.Statement (.jge a) :=
  encode_opcode _
theorem EncodeOpcode.jne (a : Address) : EncodeOpcode.Statement (.jne a) :=
  encode_opcode _
theorem EncodeOpcode.jle (a : Address) : EncodeOpcode.Statement (.jle a) :=
  encode_opcode _
theorem EncodeOpcode.jan (a : Address) : EncodeOpcode.Statement (.jan a) :=
  encode_opcode _
theorem EncodeOpcode.jaz (a : Address) : EncodeOpcode.Statement (.jaz a) :=
  encode_opcode _
theorem EncodeOpcode.jap (a : Address) : EncodeOpcode.Statement (.jap a) :=
  encode_opcode _
theorem EncodeOpcode.jann (a : Address) : EncodeOpcode.Statement (.jann a) :=
  encode_opcode _
theorem EncodeOpcode.janz (a : Address) : EncodeOpcode.Statement (.janz a) :=
  encode_opcode _
theorem EncodeOpcode.janp (a : Address) : EncodeOpcode.Statement (.janp a) :=
  encode_opcode _
theorem EncodeOpcode.j1n (a : Address) : EncodeOpcode.Statement (.j1n a) :=
  encode_opcode _
theorem EncodeOpcode.j1z (a : Address) : EncodeOpcode.Statement (.j1z a) :=
  encode_opcode _
theorem EncodeOpcode.j1p (a : Address) : EncodeOpcode.Statement (.j1p a) :=
  encode_opcode _
theorem EncodeOpcode.j1nn (a : Address) : EncodeOpcode.Statement (.j1nn a) :=
  encode_opcode _
theorem EncodeOpcode.j1nz (a : Address) : EncodeOpcode.Statement (.j1nz a) :=
  encode_opcode _
theorem EncodeOpcode.j1np (a : Address) : EncodeOpcode.Statement (.j1np a) :=
  encode_opcode _
theorem EncodeOpcode.j2n (a : Address) : EncodeOpcode.Statement (.j2n a) :=
  encode_opcode _
theorem EncodeOpcode.j2z (a : Address) : EncodeOpcode.Statement (.j2z a) :=
  encode_opcode _
theorem EncodeOpcode.j2p (a : Address) : EncodeOpcode.Statement (.j2p a) :=
  encode_opcode _
theorem EncodeOpcode.j2nn (a : Address) : EncodeOpcode.Statement (.j2nn a) :=
  encode_opcode _
theorem EncodeOpcode.j2nz (a : Address) : EncodeOpcode.Statement (.j2nz a) :=
  encode_opcode _
theorem EncodeOpcode.j2np (a : Address) : EncodeOpcode.Statement (.j2np a) :=
  encode_opcode _
theorem EncodeOpcode.j3n (a : Address) : EncodeOpcode.Statement (.j3n a) :=
  encode_opcode _
theorem EncodeOpcode.j3z (a : Address) : EncodeOpcode.Statement (.j3z a) :=
  encode_opcode _
theorem EncodeOpcode.j3p (a : Address) : EncodeOpcode.Statement (.j3p a) :=
  encode_opcode _
theorem EncodeOpcode.j3nn (a : Address) : EncodeOpcode.Statement (.j3nn a) :=
  encode_opcode _
theorem EncodeOpcode.j3nz (a : Address) : EncodeOpcode.Statement (.j3nz a) :=
  encode_opcode _
theorem EncodeOpcode.j3np (a : Address) : EncodeOpcode.Statement (.j3np a) :=
  encode_opcode _
theorem EncodeOpcode.j4n (a : Address) : EncodeOpcode.Statement (.j4n a) :=
  encode_opcode _
theorem EncodeOpcode.j4z (a : Address) : EncodeOpcode.Statement (.j4z a) :=
  encode_opcode _
theorem EncodeOpcode.j4p (a : Address) : EncodeOpcode.Statement (.j4p a) :=
  encode_opcode _
theorem EncodeOpcode.j4nn (a : Address) : EncodeOpcode.Statement (.j4nn a) :=
  encode_opcode _
theorem EncodeOpcode.j4nz (a : Address) : EncodeOpcode.Statement (.j4nz a) :=
  encode_opcode _
theorem EncodeOpcode.j4np (a : Address) : EncodeOpcode.Statement (.j4np a) :=
  encode_opcode _
theorem EncodeOpcode.j5n (a : Address) : EncodeOpcode.Statement (.j5n a) :=
  encode_opcode _
theorem EncodeOpcode.j5z (a : Address) : EncodeOpcode.Statement (.j5z a) :=
  encode_opcode _
theorem EncodeOpcode.j5p (a : Address) : EncodeOpcode.Statement (.j5p a) :=
  encode_opcode _
theorem EncodeOpcode.j5nn (a : Address) : EncodeOpcode.Statement (.j5nn a) :=
  encode_opcode _
theorem EncodeOpcode.j5nz (a : Address) : EncodeOpcode.Statement (.j5nz a) :=
  encode_opcode _
theorem EncodeOpcode.j5np (a : Address) : EncodeOpcode.Statement (.j5np a) :=
  encode_opcode _
theorem EncodeOpcode.j6n (a : Address) : EncodeOpcode.Statement (.j6n a) :=
  encode_opcode _
theorem EncodeOpcode.j6z (a : Address) : EncodeOpcode.Statement (.j6z a) :=
  encode_opcode _
theorem EncodeOpcode.j6p (a : Address) : EncodeOpcode.Statement (.j6p a) :=
  encode_opcode _
theorem EncodeOpcode.j6nn (a : Address) : EncodeOpcode.Statement (.j6nn a) :=
  encode_opcode _
theorem EncodeOpcode.j6nz (a : Address) : EncodeOpcode.Statement (.j6nz a) :=
  encode_opcode _
theorem EncodeOpcode.j6np (a : Address) : EncodeOpcode.Statement (.j6np a) :=
  encode_opcode _
theorem EncodeOpcode.jxn (a : Address) : EncodeOpcode.Statement (.jxn a) :=
  encode_opcode _
theorem EncodeOpcode.jxz (a : Address) : EncodeOpcode.Statement (.jxz a) :=
  encode_opcode _
theorem EncodeOpcode.jxp (a : Address) : EncodeOpcode.Statement (.jxp a) :=
  encode_opcode _
theorem EncodeOpcode.jxnn (a : Address) : EncodeOpcode.Statement (.jxnn a) :=
  encode_opcode _
theorem EncodeOpcode.jxnz (a : Address) : EncodeOpcode.Statement (.jxnz a) :=
  encode_opcode _
theorem EncodeOpcode.jxnp (a : Address) : EncodeOpcode.Statement (.jxnp a) :=
  encode_opcode _
theorem EncodeOpcode.inca (a : Address) : EncodeOpcode.Statement (.inca a) :=
  encode_opcode _
theorem EncodeOpcode.deca (a : Address) : EncodeOpcode.Statement (.deca a) :=
  encode_opcode _
theorem EncodeOpcode.enta (a : Address) : EncodeOpcode.Statement (.enta a) :=
  encode_opcode _
theorem EncodeOpcode.enna (a : Address) : EncodeOpcode.Statement (.enna a) :=
  encode_opcode _
theorem EncodeOpcode.inc1 (a : Address) : EncodeOpcode.Statement (.inc1 a) :=
  encode_opcode _
theorem EncodeOpcode.dec1 (a : Address) : EncodeOpcode.Statement (.dec1 a) :=
  encode_opcode _
theorem EncodeOpcode.ent1 (a : Address) : EncodeOpcode.Statement (.ent1 a) :=
  encode_opcode _
theorem EncodeOpcode.enn1 (a : Address) : EncodeOpcode.Statement (.enn1 a) :=
  encode_opcode _
theorem EncodeOpcode.inc2 (a : Address) : EncodeOpcode.Statement (.inc2 a) :=
  encode_opcode _
theorem EncodeOpcode.dec2 (a : Address) : EncodeOpcode.Statement (.dec2 a) :=
  encode_opcode _
theorem EncodeOpcode.ent2 (a : Address) : EncodeOpcode.Statement (.ent2 a) :=
  encode_opcode _
theorem EncodeOpcode.enn2 (a : Address) : EncodeOpcode.Statement (.enn2 a) :=
  encode_opcode _
theorem EncodeOpcode.inc3 (a : Address) : EncodeOpcode.Statement (.inc3 a) :=
  encode_opcode _
theorem EncodeOpcode.dec3 (a : Address) : EncodeOpcode.Statement (.dec3 a) :=
  encode_opcode _
theorem EncodeOpcode.ent3 (a : Address) : EncodeOpcode.Statement (.ent3 a) :=
  encode_opcode _
theorem EncodeOpcode.enn3 (a : Address) : EncodeOpcode.Statement (.enn3 a) :=
  encode_opcode _
theorem EncodeOpcode.inc4 (a : Address) : EncodeOpcode.Statement (.inc4 a) :=
  encode_opcode _
theorem EncodeOpcode.dec4 (a : Address) : EncodeOpcode.Statement (.dec4 a) :=
  encode_opcode _
theorem EncodeOpcode.ent4 (a : Address) : EncodeOpcode.Statement (.ent4 a) :=
  encode_opcode _
theorem EncodeOpcode.enn4 (a : Address) : EncodeOpcode.Statement (.enn4 a) :=
  encode_opcode _
theorem EncodeOpcode.inc5 (a : Address) : EncodeOpcode.Statement (.inc5 a) :=
  encode_opcode _
theorem EncodeOpcode.dec5 (a : Address) : EncodeOpcode.Statement (.dec5 a) :=
  encode_opcode _
theorem EncodeOpcode.ent5 (a : Address) : EncodeOpcode.Statement (.ent5 a) :=
  encode_opcode _
theorem EncodeOpcode.enn5 (a : Address) : EncodeOpcode.Statement (.enn5 a) :=
  encode_opcode _
theorem EncodeOpcode.inc6 (a : Address) : EncodeOpcode.Statement (.inc6 a) :=
  encode_opcode _
theorem EncodeOpcode.dec6 (a : Address) : EncodeOpcode.Statement (.dec6 a) :=
  encode_opcode _
theorem EncodeOpcode.ent6 (a : Address) : EncodeOpcode.Statement (.ent6 a) :=
  encode_opcode _
theorem EncodeOpcode.enn6 (a : Address) : EncodeOpcode.Statement (.enn6 a) :=
  encode_opcode _
theorem EncodeOpcode.incx (a : Address) : EncodeOpcode.Statement (.incx a) :=
  encode_opcode _
theorem EncodeOpcode.decx (a : Address) : EncodeOpcode.Statement (.decx a) :=
  encode_opcode _
theorem EncodeOpcode.entx (a : Address) : EncodeOpcode.Statement (.entx a) :=
  encode_opcode _
theorem EncodeOpcode.ennx (a : Address) : EncodeOpcode.Statement (.ennx a) :=
  encode_opcode _
theorem EncodeOpcode.cmpa (a : Address) (f : Field) : EncodeOpcode.Statement (.cmpa a f) :=
  encode_opcode _
theorem EncodeOpcode.cmp1 (a : Address) (f : Field) : EncodeOpcode.Statement (.cmp1 a f) :=
  encode_opcode _
theorem EncodeOpcode.cmp2 (a : Address) (f : Field) : EncodeOpcode.Statement (.cmp2 a f) :=
  encode_opcode _
theorem EncodeOpcode.cmp3 (a : Address) (f : Field) : EncodeOpcode.Statement (.cmp3 a f) :=
  encode_opcode _
theorem EncodeOpcode.cmp4 (a : Address) (f : Field) : EncodeOpcode.Statement (.cmp4 a f) :=
  encode_opcode _
theorem EncodeOpcode.cmp5 (a : Address) (f : Field) : EncodeOpcode.Statement (.cmp5 a f) :=
  encode_opcode _
theorem EncodeOpcode.cmp6 (a : Address) (f : Field) : EncodeOpcode.Statement (.cmp6 a f) :=
  encode_opcode _
theorem EncodeOpcode.cmpx (a : Address) (f : Field) : EncodeOpcode.Statement (.cmpx a f) :=
  encode_opcode _

end Sys2Proof.Laws
end

