-- ==== Sys2Proof/Tests/Slice0.lean ====
section
/-! SUPPORT. Tests: ill-formed terms the checks refuse, one word of the spec per instruction decoded, one
step of the spec's own examples, and for every statement with hypotheses a case that meets them. -/

namespace Sys2Proof.Tests

open Sys2Proof Sys2Proof.Machine Sys2Proof.Claims

/-- A word from its sign and five bytes. -/
def word (g : Sign) (a b c d e : Nat) : Word := ⟨g, BitVec.ofNat 30 ((((a * 64 + b) * 64 + c) * 64 + d) * 64 + e)⟩

/-- The reset state at pc = 100 with rJ = 7, as the examples of 45_jump.md have it. -/
def at100 : State := { State.reset with pc := 100, rJ := 7 }

/-- That state with one word of memory set. -/
def holding (a : Nat) (w : Word) : State := { at100 with mem := [(a, w)] }

/-- What an instruction word does in a state, with the parts of the next state a test reads. -/
def runs {α : Type} (n : Nat) (s : State) (f : State → α) : Option α :=
  match runWord (unpackWord (BitVec.ofNat 31 n)) s with
  | .next t => some (f t)
  | .fault _ => none
  | .refused _ => none

/-- The word `- 01 02 03 04 05`. -/
def w12345 : Word := word .minus 1 2 3 4 5

/-- An address part without index. -/
def plain (n : BitVec 12) : Address := ⟨.plus, n, none⟩

/-! ### WellFormed -/

theorem test_field_R_above_5_refused : Instr.wf Params.default (.lda (plain 0) ⟨0, 6⟩) = false := by decide
theorem test_field_L_above_R_refused : Instr.wf Params.default (.sta (plain 0) ⟨4, 3⟩) = false := by decide
theorem test_unit_outside_IO_UNITS_refused : Instr.wf Params.default (.ioc (plain 0) 21) = false := by decide
theorem test_all_21_fields_accepted :
    ((List.range 64).filter fun n => (fieldOf (BitVec.ofNat 6 n)).valid).length = 21 := by decide
theorem test_unit_20_accepted : Instr.wf Params.default (.ioc (plain 0) 20) = true := by decide

/-! ### Decode -/

/-- The example words of 48_misc.md. -/
theorem test_decode_Misc : ∀ x ∈ ([
    (0, .nop ⟨.plus, 0, none⟩ ⟨0, 0⟩),
    (5, .num ⟨.plus, 0, none⟩),
    (69, .char ⟨.plus, 0, none⟩),
    (133, .hlt ⟨.plus, 0, none⟩),
    (262144199, .move ⟨.plus, 1000, none⟩ 3),
    (262145186, .jbus ⟨.plus, 1000, none⟩ 18),
    (1187, .ioc ⟨.plus, 0, none⟩ 18),
    (524289060, .inp ⟨.plus, 2000, none⟩ 16),
    (524289189, .out ⟨.plus, 2000, none⟩ 18),
    (262145190, .jred ⟨.plus, 1000, none⟩ 18)
] : List (Nat × Instr)), decodeTableWord 31 x.1 = some x.2 := by decide

/-- The example words of 42_arithmetic.md. -/
theorem test_decode_Arithmetic : ∀ x ∈ ([
    (262144321, .add ⟨.plus, 1000, none⟩ ⟨0, 5⟩),
    (262144322, .sub ⟨.plus, 1000, none⟩ ⟨0, 5⟩),
    (262144323, .mul ⟨.plus, 1000, none⟩ ⟨0, 5⟩),
    (262144324, .div ⟨.plus, 1000, none⟩ ⟨0, 5⟩)
] : List (Nat × Instr)), decodeTableWord 31 x.1 = some x.2 := by decide

/-- The example words of 43_shift.md. -/
theorem test_decode_Shift : ∀ x ∈ ([
    (262150, .sla ⟨.plus, 1, none⟩),
    (262214, .sra ⟨.plus, 1, none⟩),
    (262278, .slax ⟨.plus, 1, none⟩),
    (262342, .srax ⟨.plus, 1, none⟩),
    (262406, .slc ⟨.plus, 1, none⟩),
    (262470, .src ⟨.plus, 1, none⟩)
] : List (Nat × Instr)), decodeTableWord 31 x.1 = some x.2 := by decide

/-- The example words of 40_load.md. -/
theorem test_decode_Load : ∀ x ∈ ([
    (524288200, .lda ⟨.plus, 2000, none⟩ ⟨0, 3⟩),
    (524288329, .ld1 ⟨.plus, 2000, none⟩ ⟨0, 5⟩),
    (524288330, .ld2 ⟨.plus, 2000, none⟩ ⟨0, 5⟩),
    (524288331, .ld3 ⟨.plus, 2000, none⟩ ⟨0, 5⟩),
    (524288332, .ld4 ⟨.plus, 2000, none⟩ ⟨0, 5⟩),
    (524288333, .ld5 ⟨.plus, 2000, none⟩ ⟨0, 5⟩),
    (524288334, .ld6 ⟨.plus, 2000, none⟩ ⟨0, 5⟩),
    (524290383, .ldx ⟨.plus, 2000, none⟩ ⟨4, 5⟩),
    (524288848, .ldan ⟨.plus, 2000, none⟩ ⟨1, 5⟩),
    (524288337, .ld1n ⟨.plus, 2000, none⟩ ⟨0, 5⟩),
    (524288338, .ld2n ⟨.plus, 2000, none⟩ ⟨0, 5⟩),
    (524288339, .ld3n ⟨.plus, 2000, none⟩ ⟨0, 5⟩),
    (524288340, .ld4n ⟨.plus, 2000, none⟩ ⟨0, 5⟩),
    (524288341, .ld5n ⟨.plus, 2000, none⟩ ⟨0, 5⟩),
    (524288342, .ld6n ⟨.plus, 2000, none⟩ ⟨0, 5⟩),
    (524288023, .ldxn ⟨.plus, 2000, none⟩ ⟨0, 0⟩)
] : List (Nat × Instr)), decodeTableWord 31 x.1 = some x.2 := by decide

/-- The example words of 41_store.md. -/
theorem test_decode_Store : ∀ x ∈ ([
    (262145240, .sta ⟨.plus, 1000, none⟩ ⟨2, 3⟩),
    (262144345, .st1 ⟨.plus, 1000, none⟩ ⟨0, 5⟩),
    (262144346, .st2 ⟨.plus, 1000, none⟩ ⟨0, 5⟩),
    (262144347, .st3 ⟨.plus, 1000, none⟩ ⟨0, 5⟩),
    (262144348, .st4 ⟨.plus, 1000, none⟩ ⟨0, 5⟩),
    (262144349, .st5 ⟨.plus, 1000, none⟩ ⟨0, 5⟩),
    (262144350, .st6 ⟨.plus, 1000, none⟩ ⟨0, 5⟩),
    (262144863, .stx ⟨.plus, 1000, none⟩ ⟨1, 5⟩),
    (262144160, .stj ⟨.plus, 1000, none⟩ ⟨0, 2⟩),
    (262144353, .stz ⟨.plus, 1000, none⟩ ⟨0, 5⟩)
] : List (Nat × Instr)), decodeTableWord 31 x.1 = some x.2 := by decide

/-- The example words of 45_jump.md. -/
theorem test_decode_Jump : ∀ x ∈ ([
    (262144039, .jmp ⟨.plus, 1000, none⟩),
    (262144103, .jsj ⟨.plus, 1000, none⟩),
    (262144167, .jov ⟨.plus, 1000, none⟩),
    (262144231, .jnov ⟨.plus, 1000, none⟩),
    (262144295, .jl ⟨.plus, 1000, none⟩),
    (262144359, .je ⟨.plus, 1000, none⟩),
    (262144423, .jg ⟨.plus, 1000, none⟩),
    (262144487, .jge ⟨.plus, 1000, none⟩),
    (262144551, .jne ⟨.plus, 1000, none⟩),
    (262144615, .jle ⟨.plus, 1000, none⟩)
] : List (Nat × Instr)), decodeTableWord 31 x.1 = some x.2 := by decide

/-- The example words of 46_register_jump.md. -/
theorem test_decode_RegisterJump_1 : ∀ x ∈ ([
    (262144040, .jan ⟨.plus, 1000, none⟩),
    (262144104, .jaz ⟨.plus, 1000, none⟩),
    (262144168, .jap ⟨.plus, 1000, none⟩),
    (262144232, .jann ⟨.plus, 1000, none⟩),
    (262144296, .janz ⟨.plus, 1000, none⟩),
    (262144360, .janp ⟨.plus, 1000, none⟩),
    (262144041, .j1n ⟨.plus, 1000, none⟩),
    (262144105, .j1z ⟨.plus, 1000, none⟩),
    (262144169, .j1p ⟨.plus, 1000, none⟩),
    (262144233, .j1nn ⟨.plus, 1000, none⟩),
    (262144297, .j1nz ⟨.plus, 1000, none⟩),
    (262144361, .j1np ⟨.plus, 1000, none⟩),
    (262144042, .j2n ⟨.plus, 1000, none⟩),
    (262144106, .j2z ⟨.plus, 1000, none⟩),
    (262144170, .j2p ⟨.plus, 1000, none⟩),
    (262144234, .j2nn ⟨.plus, 1000, none⟩)
] : List (Nat × Instr)), decodeTableWord 31 x.1 = some x.2 := by decide

/-- The example words of 46_register_jump.md. -/
theorem test_decode_RegisterJump_2 : ∀ x ∈ ([
    (262144298, .j2nz ⟨.plus, 1000, none⟩),
    (262144362, .j2np ⟨.plus, 1000, none⟩),
    (262144043, .j3n ⟨.plus, 1000, none⟩),
    (262144107, .j3z ⟨.plus, 1000, none⟩),
    (262144171, .j3p ⟨.plus, 1000, none⟩),
    (262144235, .j3nn ⟨.plus, 1000, none⟩),
    (262144299, .j3nz ⟨.plus, 1000, none⟩),
    (262144363, .j3np ⟨.plus, 1000, none⟩),
    (262144044, .j4n ⟨.plus, 1000, none⟩),
    (262144108, .j4z ⟨.plus, 1000, none⟩),
    (262144172, .j4p ⟨.plus, 1000, none⟩),
    (262144236, .j4nn ⟨.plus, 1000, none⟩),
    (262144300, .j4nz ⟨.plus, 1000, none⟩),
    (262144364, .j4np ⟨.plus, 1000, none⟩),
    (262144045, .j5n ⟨.plus, 1000, none⟩),
    (262144109, .j5z ⟨.plus, 1000, none⟩)
] : List (Nat × Instr)), decodeTableWord 31 x.1 = some x.2 := by decide

/-- The example words of 46_register_jump.md. -/
theorem test_decode_RegisterJump_3 : ∀ x ∈ ([
    (262144173, .j5p ⟨.plus, 1000, none⟩),
    (262144237, .j5nn ⟨.plus, 1000, none⟩),
    (262144301, .j5nz ⟨.plus, 1000, none⟩),
    (262144365, .j5np ⟨.plus, 1000, none⟩),
    (262144046, .j6n ⟨.plus, 1000, none⟩),
    (262144110, .j6z ⟨.plus, 1000, none⟩),
    (262144174, .j6p ⟨.plus, 1000, none⟩),
    (262144238, .j6nn ⟨.plus, 1000, none⟩),
    (262144302, .j6nz ⟨.plus, 1000, none⟩),
    (262144366, .j6np ⟨.plus, 1000, none⟩),
    (262144047, .jxn ⟨.plus, 1000, none⟩),
    (262144111, .jxz ⟨.plus, 1000, none⟩),
    (262144175, .jxp ⟨.plus, 1000, none⟩),
    (262144239, .jxnn ⟨.plus, 1000, none⟩),
    (262144303, .jxnz ⟨.plus, 1000, none⟩),
    (262144367, .jxnp ⟨.plus, 1000, none⟩)
] : List (Nat × Instr)), decodeTableWord 31 x.1 = some x.2 := by decide

/-- The example words of 47_address_transfer.md. -/
theorem test_decode_AddressTransfer_1 : ∀ x ∈ ([
    (1310768, .inca ⟨.plus, 5, none⟩),
    (1310832, .deca ⟨.plus, 5, none⟩),
    (1310896, .enta ⟨.plus, 5, none⟩),
    (1310960, .enna ⟨.plus, 5, none⟩),
    (1310769, .inc1 ⟨.plus, 5, none⟩),
    (1310833, .dec1 ⟨.plus, 5, none⟩),
    (1310897, .ent1 ⟨.plus, 5, none⟩),
    (1310961, .enn1 ⟨.plus, 5, none⟩),
    (1310770, .inc2 ⟨.plus, 5, none⟩),
    (1310834, .dec2 ⟨.plus, 5, none⟩),
    (1310898, .ent2 ⟨.plus, 5, none⟩),
    (1310962, .enn2 ⟨.plus, 5, none⟩),
    (1310771, .inc3 ⟨.plus, 5, none⟩),
    (1310835, .dec3 ⟨.plus, 5, none⟩),
    (1310899, .ent3 ⟨.plus, 5, none⟩),
    (1310963, .enn3 ⟨.plus, 5, none⟩)
] : List (Nat × Instr)), decodeTableWord 31 x.1 = some x.2 := by decide

/-- The example words of 47_address_transfer.md. -/
theorem test_decode_AddressTransfer_2 : ∀ x ∈ ([
    (1310772, .inc4 ⟨.plus, 5, none⟩),
    (1310836, .dec4 ⟨.plus, 5, none⟩),
    (1310900, .ent4 ⟨.plus, 5, none⟩),
    (1310964, .enn4 ⟨.plus, 5, none⟩),
    (1310773, .inc5 ⟨.plus, 5, none⟩),
    (1310837, .dec5 ⟨.plus, 5, none⟩),
    (1310901, .ent5 ⟨.plus, 5, none⟩),
    (1310965, .enn5 ⟨.plus, 5, none⟩),
    (1310774, .inc6 ⟨.plus, 5, none⟩),
    (1310838, .dec6 ⟨.plus, 5, none⟩),
    (1310902, .ent6 ⟨.plus, 5, none⟩),
    (1310966, .enn6 ⟨.plus, 5, none⟩),
    (1310775, .incx ⟨.plus, 5, none⟩),
    (1310839, .decx ⟨.plus, 5, none⟩),
    (1310903, .entx ⟨.plus, 5, none⟩),
    (1310967, .ennx ⟨.plus, 5, none⟩)
] : List (Nat × Instr)), decodeTableWord 31 x.1 = some x.2 := by decide

/-- The example words of 44_compare.md. -/
theorem test_decode_Compare : ∀ x ∈ ([
    (262144376, .cmpa ⟨.plus, 1000, none⟩ ⟨0, 5⟩),
    (262144377, .cmp1 ⟨.plus, 1000, none⟩ ⟨0, 5⟩),
    (262144378, .cmp2 ⟨.plus, 1000, none⟩ ⟨0, 5⟩),
    (262144379, .cmp3 ⟨.plus, 1000, none⟩ ⟨0, 5⟩),
    (262144380, .cmp4 ⟨.plus, 1000, none⟩ ⟨0, 5⟩),
    (262144381, .cmp5 ⟨.plus, 1000, none⟩ ⟨0, 5⟩),
    (262144382, .cmp6 ⟨.plus, 1000, none⟩ ⟨0, 5⟩),
    (262144383, .cmpx ⟨.plus, 1000, none⟩ ⟨0, 5⟩)
] : List (Nat × Instr)), decodeTableWord 31 x.1 = some x.2 := by decide


/-- 95_test_vectors.md 2.1: words with a bad index or a bad F are rejected by name. -/
theorem test_decode_rejects :
    decode Params.default (unpackWord 29000) = .illegalInstruction ∧
    decode Params.default (unpackWord 2147483647) = .illegalInstruction ∧
    (∀ x ∈ ([(392, 6), (2248, 35), (679, 10), (304, 4), (390, 6), (197, 3), (262144431, 6)] : List (Nat × Nat)),
      decode Params.default (unpackWord (BitVec.ofNat 31 x.1)) = .fieldError (BitVec.ofNat 6 x.2)) := by decide

/-- 95_test_vectors.md 2.11: with the gk operations not admitted, STJ is refused; with MAX_OPCODE = 62,
CMPX is illegal. -/
theorem test_decode_refuses :
    decode { Params.default with gkOpsAdmitted := false } (unpackWord 262144160) = .refused 32 2 ∧
    decode { Params.default with maxOpcode := 62 } (unpackWord 1073507199) = .illegalInstruction := by decide

/-- 95_test_vectors.md 1.1: the boundary words encode back. -/
theorem test_encode : encode (.nop ⟨.minus, 0, none⟩ ⟨0, 0⟩) = unpackWord 1073741824 ∧
    encode (.cmpx ⟨.minus, 4095, some .r6⟩ ⟨5, 5⟩) = unpackWord 2147249023 ∧
    encode (.cmpa ⟨.minus, 2048, some .r5⟩ ⟨1, 5⟩) = unpackWord 1610634104 := by decide

/-! ### One step of the spec's examples -/

/-- R204, R211, R212, R219 and 95_test_vectors.md 2.2. -/
theorem test_loads_of_A_and_X : let s := holding 2000 w12345
    runs 524288328 s (·.rA) = some w12345 ∧ runs 524288200 s (·.rA) = some (word .minus 0 0 1 2 3) ∧
    runs 524290312 s (·.rA) = some (word .plus 0 0 0 0 4) ∧ runs 524288008 s (·.rA) = some (word .minus 0 0 0 0 0) ∧
    runs 524289295 s (·.rX) = some (word .plus 0 0 2 3 4) ∧ runs 524288848 s (·.rA) = some (word .minus 1 2 3 4 5) ∧
    runs 524288016 s (·.rA) = some (word .plus 0 0 0 0 0) ∧ runs 524288151 s (·.rX) = some (word .plus 0 0 0 1 2) := by
  decide

/-- R205–R210, R213–R218: LDi and LDiN of `- 00 00 00 01 02`. -/
theorem test_loads_of_index_registers : let s := holding 2000 (word .minus 0 0 0 1 2);
    (∀ x ∈ ([(.r1, 524288329, 524288337), (.r2, 524288330, 524288338), (.r3, 524288331, 524288339),
        (.r4, 524288332, 524288340), (.r5, 524288333, 524288341), (.r6, 524288334, 524288342)] :
        List (IndexReg × Nat × Nat)),
      runs x.2.1 s (·.index x.1) = some ⟨.minus, 66⟩ ∧ runs x.2.2 s (·.index x.1) = some ⟨.plus, 66⟩) := by
  decide

/-- 95_test_vectors.md 2.2: LD6 of a wide value is logged; LD1 0,1 forms M from the old rI1. -/
theorem test_index_load_anomaly_and_old_index :
    runs 524288334 (holding 2000 w12345) (fun t => (t.rI6, t.log)) =
      some (⟨.minus, 261⟩, [⟨.indexAnomaly .r6 (-17314053), 100⟩]) ∧
    runs 4425 { holding 5 (word .plus 0 0 0 0 9) with rI1 := ⟨.plus, 5⟩ } (·.rI1) = some ⟨.plus, 9⟩ := by decide

/-- 95_test_vectors.md 2.2: a load outside memory. -/
theorem test_address_fault : runs 1048576328 at100 (·.runState) = some (.faulted (.addressFault 4000) 100) ∧
    runs 1074004296 at100 (·.runState) = some (.faulted (.addressFault (-1)) 100) := by decide

/-- 95_test_vectors.md 2.3 and R232–R241. -/
theorem test_stores : let s := { holding 1000 w12345 with
      rA := word .plus 6 7 8 9 10, rX := word .minus 0 0 0 0 0, rI4 := ⟨.minus, 300⟩, rJ := 77 }
    (∀ x ∈ ([(262144344, word .plus 6 7 8 9 10), (262145176, word .minus 1 10 3 4 5),
        (262144088, word .plus 10 2 3 4 5), (262144024, word .plus 1 2 3 4 5),
        (262144351, word .minus 0 0 0 0 0), (262144031, word .minus 1 2 3 4 5),
        (262144348, word .minus 0 0 0 4 44), (262144220, word .minus 0 4 44 4 5),
        (262144160, word .plus 1 13 3 4 5), (262146400, word .minus 1 2 3 1 13),
        (262144353, word .plus 0 0 0 0 0), (262145761, word .minus 1 2 0 4 5)] : List (Nat × Word)),
      runs x.1 s (·.word 1000) = some x.2) := by decide

/-- R233–R238: STi of +66. -/
theorem test_stores_of_index_registers :
    (∀ x ∈ ([(.r1, 262144345), (.r2, 262144346), (.r3, 262144347), (.r4, 262144348), (.r5, 262144349),
        (.r6, 262144350)] : List (IndexReg × Nat)),
      runs x.2 ((holding 1000 w12345).setIndex x.1 ⟨.plus, 66⟩) (·.mem) =
        some [(1000, word .plus 0 0 0 1 2)]) := by decide

/-- R256, R257 and 95_test_vectors.md 2.4: sums, the sign of zero, overflow. -/
theorem test_add_and_sub : let go := (fun (n : Nat) (a m : Word) =>
      runs n { holding 1000 m with rA := a } (fun t => (t.rA, t.ov)));
    go 262144321 (word .plus 19 18 1 2 22) (word .plus 1 36 5 0 50) = some (word .plus 20 54 6 3 8, false) ∧
    go 262144321 (word .minus 0 0 0 0 5) (word .plus 0 0 0 0 5) = some (word .minus 0 0 0 0 0, false) ∧
    go 262144321 (word .minus 63 63 63 63 63) (word .minus 0 0 0 0 2) = some (word .minus 0 0 0 0 1, true) ∧
    go 262144322 (word .minus 19 18 0 0 9) (word .minus 31 16 2 22 0) = some (word .plus 11 62 2 21 55, false) ∧
    go 262144322 (word .minus 63 63 63 63 63) (word .plus 0 0 0 0 1) = some (word .minus 0 0 0 0 0, true) := by
  decide

/-- R258. -/
theorem test_mul : let go := (fun (n : Nat) (a m : Word) =>
      runs n { holding 1000 m with rA := a } (fun t => (t.rA, t.rX)));
    go 262144323 (word .plus 1 1 1 1 1) (word .plus 1 1 1 1 1) = some (word .plus 0 1 2 3 4, word .plus 5 4 3 2 1) ∧
    go 262144579 (word .minus 0 0 0 1 12) (word .minus 2 0 0 0 0) =
      some (word .minus 0 0 0 0 0, word .minus 0 0 0 2 24) := by decide

/-- R259 and 95_test_vectors.md 2.4; an overflow sets OV, and rA and rX are free. -/
theorem test_div : let go := (fun (a x m : Word) =>
      runs 262144324 { holding 1000 m with rA := a, rX := x } (fun t => (t.rA, t.rX, t.ov)));
    go (word .minus 0 0 0 0 0) (word .plus 19 19 0 3 1) (word .minus 0 0 0 2 0) =
      some (word .plus 0 9 41 32 1, word .minus 0 0 0 1 1, false) ∧
    go (word .plus 0 0 0 0 1) (word .plus 0 0 0 0 0) (word .plus 0 0 0 0 2) =
      some (word .plus 32 0 0 0 0, word .plus 0 0 0 0 0, false) ∧
    (go (word .plus 0 0 0 0 2) (word .plus 0 0 0 0 0) (word .plus 0 0 0 0 2)).map (·.2.2) = some true := by decide

/-- R284–R289 and 95_test_vectors.md 2.5. -/
theorem test_shifts : let s := { at100 with rA := word .plus 1 2 3 4 5, rX := word .minus 6 7 8 9 10 }
    (∀ x ∈ ([(524294, word .plus 3 4 5 0 0, word .minus 6 7 8 9 10),
        (524358, word .plus 0 0 1 2 3, word .minus 6 7 8 9 10),
        (1835142, word .plus 8 9 10 0 0, word .minus 0 0 0 0 0),
        (1835206, word .plus 0 0 0 0 0, word .minus 0 0 1 2 3),
        (1835270, word .plus 8 9 10 1 2, word .minus 3 4 5 6 7),
        (1835334, word .plus 4 5 6 7 8, word .minus 9 10 1 2 3),
        (16515078, word .plus 0 0 0 0 0, word .minus 6 7 8 9 10),
        (3408134, word .plus 4 5 6 7 8, word .minus 9 10 1 2 3),
        (1073480006, word .plus 6 7 8 9 10, word .minus 1 2 3 4 5)] : List (Nat × Word × Word)),
      runs x.1 s (fun t => (t.rA, t.rX, t.ov)) = some (x.2.1, x.2.2, false)) := by decide

/-- R281, R282: a negative count faults; with SHIFT_SETS_OVERFLOW, SLA 1 sets OV on a non-zero byte 1. -/
theorem test_shift_fault_and_overflow :
    runs 1074004038 at100 (·.runState) = some (.faulted (.operandFault (-1)) 100) ∧
    (let s := { at100 with params := { Params.default with shiftSetsOverflow := true } }
     runs 262150 { s with rA := word .plus 1 0 0 0 0 } (·.ov) = some true ∧
     runs 262150 { s with rA := word .plus 0 9 0 0 0 } (·.ov) = some false) := by decide

/-- R304, R311 and 95_test_vectors.md 1.4, 2.6. -/
theorem test_compares_of_A_and_X : let a := fun (n : Nat) (r m : Word) => runs n { holding 1000 m with rA := r } (·.ci)
    a 262144376 (word .minus 0 0 0 1 2) (word .plus 0 0 0 1 1) = some .less ∧
    a 262144888 (word .minus 0 0 0 1 2) (word .plus 0 0 0 1 1) = some .greater ∧
    a 262144056 (word .plus 9 0 0 0 1) (word .minus 63 63 63 63 63) = some .equal ∧
    a 262144376 (word .minus 0 0 0 0 0) (word .plus 0 0 0 0 0) = some .equal ∧
    runs 262144383 { holding 1000 (word .plus 0 0 0 1 1) with rX := word .minus 0 0 0 1 2 } (·.ci) = some .less := by
  decide

/-- R305–R310: CMPi of −66 with 65, and with (4:5). -/
theorem test_compares_of_index_registers :
    (∀ x ∈ ([(.r1, 262144377, 262146425), (.r2, 262144378, 262146426), (.r3, 262144379, 262146427),
        (.r4, 262144380, 262146428), (.r5, 262144381, 262146429), (.r6, 262144382, 262146430)] :
        List (IndexReg × Nat × Nat)),
      let s := (holding 1000 (word .plus 0 0 0 1 1)).setIndex x.1 ⟨.minus, 66⟩
      runs x.2.1 s (·.ci) = some .less ∧ runs x.2.2 s (·.ci) = some .greater) := by decide

/-- The table of 95_test_vectors.md 1.7, by F: taken or not for OV = 0 and CI = LESS, EQUAL, GREATER, then OV = 1
and CI = EQUAL; then rJ and OV after, for the last column. -/
theorem test_jumps_of_opcode_39 :
    (∀ x ∈ ([(262144039, [true, true, true, true], 101, true), (262144103, [true, true, true, true], 7, true),
        (262144167, [false, false, false, true], 101, false), (262144231, [true, true, true, false], 101, false),
        (262144295, [true, false, false, false], 101, true), (262144359, [false, true, false, true], 101, true),
        (262144423, [false, false, true, false], 101, true), (262144487, [false, true, true, true], 101, true),
        (262144551, [true, false, true, false], 101, true), (262144615, [true, true, false, true], 101, true)] :
        List (Nat × List Bool × BitVec 12 × Bool)),
      [(false, Comparison.less), (false, .equal), (false, .greater), (true, .equal)].map
          (fun c => runs x.1 { at100 with ov := c.1, ci := c.2 } (·.pc)) =
        x.2.1.map (fun b => some (if b then 1000 else 101)) ∧
      runs x.1 { at100 with ov := true, ci := .equal } (fun t => (t.rJ, t.ov)) = some (x.2.2.1, x.2.2.2)) := by
  decide

/-- 95_test_vectors.md 2.7: faults, indexing, the J policy, the return address at 4095. -/
theorem test_jump_corners :
    runs 1048576167 { at100 with ov := true } (fun t => (t.runState, t.pc, t.rJ, t.ov)) =
      some (.faulted (.addressFault 4000) 100, 100, 7, true) ∧
    runs 1048576359 { at100 with ci := .less } (fun t => (t.pc, t.rJ)) = some (101, 101) ∧
    runs 1075064871 { at100 with rI3 := ⟨.plus, 5⟩ } (·.pc) = some 0 ∧
    runs 262144295 { at100 with ci := .greater, params := { Params.default with jWrite := .whenTaken } }
      (fun t => (t.pc, t.rJ)) = some (101, 7) ∧
    runs 262144039 { at100 with pc := 4095, params := { Params.default with memSize := 4096 } }
      (fun t => (t.pc, t.rJ)) = some (1000, 0) := by decide

/-- The table of 95_test_vectors.md 2.8 for rA, and R394–R399 for rX. -/
theorem test_register_jumps_of_A_and_X :
    (∀ x ∈ ([(word .minus 63 63 63 63 63, [true, false, false, false, true, true]),
        (word .minus 0 0 0 0 0, [false, true, false, true, false, true]),
        (word .plus 0 0 0 0 0, [false, true, false, true, false, true]),
        (word .plus 0 0 0 0 1, [false, false, true, true, true, false])] : List (Word × List Bool)),
      [262144040, 262144104, 262144168, 262144232, 262144296, 262144360].map
          (fun n => runs n { at100 with rA := x.1 } (fun t => (t.pc, t.rJ))) =
        x.2.map (fun b => some (if b then 1000 else 101, 101)) ∧
      [262144047, 262144111, 262144175, 262144239, 262144303, 262144367].map
          (fun n => runs n { at100 with rX := x.1 } (fun t => (t.pc, t.rJ))) =
        x.2.map (fun b => some (if b then 1000 else 101, 101))) := by decide

/-- The same table for rI1..rI6: the word of JiN, then those of the other five conditions, 64 apart. -/
theorem test_register_jumps_of_index_registers :
    (∀ x ∈ ([(.r1, 262144041), (.r2, 262144042), (.r3, 262144043), (.r4, 262144044), (.r5, 262144045),
        (.r6, 262144046)] : List (IndexReg × Nat)),
      ([((⟨.minus, 1⟩ : IndexWord), [true, false, false, false, true, true]),
          (⟨.minus, 0⟩, [false, true, false, true, false, true]),
          (⟨.plus, 4095⟩, [false, false, true, true, true, false])] : List (IndexWord × List Bool)).all fun y =>
        [0, 64, 128, 192, 256, 320].map (fun d => runs (x.2 + d) (at100.setIndex x.1 y.1) (·.pc)) ==
          y.2.map (fun b => some (if b then 1000 else 101))) := by decide

/-- R424–R427, R452–R455 and 95_test_vectors.md 2.9. -/
theorem test_transfers_of_A_and_X : let s := { at100 with rA := word .plus 0 0 0 1 36, rX := word .plus 0 0 0 1 36 }
    runs 1310768 s (·.rA) = some (word .plus 0 0 0 1 41) ∧ runs 26214512 s (·.rA) = some (word .plus 0 0 0 0 0) ∧
    runs 1075052720 s (·.rA) = some (word .minus 0 0 0 0 5) ∧ runs 1073742000 s (·.rA) = some (word .minus 0 0 0 0 0) ∧
    runs 1310960 s (·.rA) = some (word .minus 0 0 0 0 5) ∧ runs 1075052784 s (·.rA) = some (word .minus 0 0 0 0 5) ∧
    runs 1310775 s (·.rX) = some (word .plus 0 0 0 1 41) ∧ runs 1310839 s (·.rX) = some (word .plus 0 0 0 1 31) ∧
    runs 1310903 s (·.rX) = some (word .plus 0 0 0 0 5) ∧ runs 1073742071 s (·.rX) = some (word .minus 0 0 0 0 0) := by
  decide

/-- 95_test_vectors.md 2.9: the overflow of INCA, the widest M, and ENN_POLICY = negate. -/
theorem test_transfer_corners :
    runs 262192 { at100 with rA := word .plus 63 63 63 63 63 } (fun t => (t.rA, t.ov)) =
      some (word .plus 0 0 0 0 0, true) ∧
    runs 1073483952 { at100 with rI1 := ⟨.plus, 4095⟩ } (·.rA) = some (word .plus 0 0 1 63 62) ∧
    (let s := { at100 with params := { Params.default with enn := .negate } }
     runs 1075052784 s (·.rA) = some (word .plus 0 0 0 0 5) ∧
     runs 1073742064 s (·.rA) = some (word .plus 0 0 0 0 0) ∧
     runs 1075052785 s (·.rI1) = some ⟨.plus, 5⟩) := by decide

/-- R428–R451: INCi 5, DECi 5, ENTi -5 and ENNi 5 from rIi = +100. -/
theorem test_transfers_of_index_registers :
    (∀ x ∈ ([(.r1, 0), (.r2, 1), (.r3, 2), (.r4, 3), (.r5, 4), (.r6, 5)] : List (IndexReg × Nat)),
      let s := at100.setIndex x.1 ⟨.plus, 100⟩
      runs (1310769 + x.2) s (·.index x.1) = some ⟨.plus, 105⟩ ∧
      runs (1310833 + x.2) s (·.index x.1) = some ⟨.plus, 95⟩ ∧
      runs (1075052721 + x.2) s (·.index x.1) = some ⟨.minus, 5⟩ ∧
      runs (1310961 + x.2) s (·.index x.1) = some ⟨.minus, 5⟩) := by decide

/-- 95_test_vectors.md 2.9, 2.11: index anomalies, recorded and fatal, and a zero that keeps its sign. -/
theorem test_transfer_anomalies :
    runs 25165873 { at100 with rI1 := ⟨.plus, 4000⟩ } (fun t => (t.rI1, t.log)) =
      some (⟨.plus, 0⟩, [⟨.indexAnomaly .r1 4096, 100⟩]) ∧
    runs 237244593 { at100 with rI1 := ⟨.plus, 4095⟩, params := { Params.default with indexAnomaly := .stop } }
      (fun t => (t.rI1, t.runState)) = some (⟨.plus, 4095⟩, .faulted (.indexAnomaly .r1 5000) 100) ∧
    runs 786481 { at100 with rI1 := ⟨.minus, 3⟩ } (·.rI1) = some ⟨.minus, 0⟩ := by decide

/-- R470, R471 and 95_test_vectors.md 2.10. -/
theorem test_num_and_char :
    runs 5 { at100 with rA := word .minus 0 0 31 32 39, rX := word .plus 37 57 47 30 30 } (·.rA) =
      some (word .minus 0 49 32 24 36) ∧
    runs 5 { at100 with rA := word .minus 39 39 39 39 39, rX := word .plus 39 39 39 39 39 } (·.rA) =
      some (word .minus 20 2 62 15 63) ∧
    runs 69 { at100 with rA := word .minus 0 49 32 24 35, rX := word .plus 37 57 47 30 30 } (fun t => (t.rA, t.rX)) =
      some (word .minus 30 30 31 32 39, word .plus 37 37 36 39 39) := by decide

/-- R472, R473: HLT and NOP, from the whole step. -/
theorem test_hlt_and_nop :
    step (State.reset.withFetchWord 31 133) =
      .next { State.reset with mem := [(0, word .plus 0 0 0 2 5)], pc := 1, runState := .halted } ∧
    step State.reset = .next { State.reset with pc := 1 } := ⟨rfl, rfl⟩

/-- R474: MOVE, overlapping, outside memory and of no words. -/
theorem test_move : let s := { at100 with
      mem := [(1000, word .plus 0 0 0 0 1), (1001, word .plus 0 0 0 0 2), (1002, word .plus 0 0 0 0 3)] }
    runs 262144199 { s with rI1 := ⟨.plus, 2000⟩ } (fun t => (t.rI1, t.word 2000, t.word 2002)) =
      some (⟨.plus, 2003⟩, word .plus 0 0 0 0 1, word .plus 0 0 0 0 3) ∧
    runs 262144199 { s with rI1 := ⟨.plus, 1001⟩ } (fun t => (t.rI1, t.word 1001, t.word 1003)) =
      some (⟨.plus, 1004⟩, word .plus 0 0 0 0 1, word .plus 0 0 0 0 1) ∧
    runs 262144327 { s with rI1 := ⟨.plus, 3998⟩ } (fun t => (t.rI1, t.mem, t.runState)) =
      some (⟨.plus, 3998⟩, s.mem, .faulted (.addressFault 4000) 100) ∧
    runs 262144007 { s with rI1 := ⟨.plus, 2000⟩ } (fun t => (t.rI1, t.mem)) = some (⟨.plus, 2000⟩, s.mem) := by decide

/-- R481–R485 and 95_test_vectors.md 2.11, with the oracle's answer in the state. -/
theorem test_io : let busy := { at100 with oracle := [.answer true []] }
    let free := { at100 with oracle := [.answer false [(2000, word .plus 1 2 3 4 5)]] }
    runs 262145186 busy (fun t => (t.pc, t.rJ)) = some (1000, 101) ∧
    runs 262145186 free (fun t => (t.pc, t.rJ)) = some (101, 101) ∧
    runs 262145190 free (fun t => (t.pc, t.rJ)) = some (1000, 101) ∧
    runs 1187 free (fun t => (t.pc, t.rJ, t.oracle)) = some (101, 7, []) ∧
    runs 524289060 free (fun t => (t.pc, t.mem)) = some (101, [(2000, word .plus 1 2 3 4 5)]) ∧
    runs 524289189 free (fun t => (t.pc, t.mem)) = some (101, []) ∧
    runs 524289189 { at100 with oracle := [.fail] } (·.runState) = some (.faulted (.deviceFault 18) 100) := by decide

/-- 95_test_vectors.md 2.11: the order of the checks. -/
theorem test_priority :
    runs 29064 at100 (·.runState) = some (.faulted (.illegalInstruction (unpackWord 29064)) 100) ∧
    runs 1048576392 at100 (fun t => (t.runState, t.pc, t.log)) = some (.running, 101, [⟨.fieldError 6, 100⟩]) ∧
    runs 1074004422 at100 (·.log) = some [⟨.fieldError 7, 100⟩] ∧
    runs 1048576392 { at100 with params := { Params.default with fieldError := .stop } } (·.runState) =
      some (.faulted (.fieldError 6) 100) ∧
    runs 262144160 { at100 with params := { Params.default with gkOpsAdmitted := false } } (·.runState) =
      some (.refused 100 32 2) := by decide

/-- 60_exceptions.md R500 and 10_state.md R49: the codes of the host report. -/
theorem test_report_codes :
    [Event.illegalInstruction Word.zero, .fieldError 6, .addressFault 4000, .operandFault (-1), .indexAnomaly .r1 4096,
      .deviceFault 18].map Event.code = [1, 2, 3, 4, 5, 6] ∧
    [Comparison.equal, .less, .greater].map Comparison.bits = [0, 1, 2] := by decide

/-! ### Every statement's hypotheses can be met, clause by clause, at the ends of their ranges -/

theorem witness_DecodeOfEncodeIsTheInstruction :
    Instr.wf Params.default (.move ⟨.minus, 4095, some .r6⟩ 63) = true ∧
    (let p := { Params.default with gkOpsAdmitted := false }
     let i := Instr.cmpx ⟨.minus, 4095, some .r6⟩ ⟨5, 5⟩
     i.wf p = true ∧ (encodeParts i).1.toNat ≤ p.maxOpcode.toNat ∧ gkOpcode (encodeParts i).1 = false) := by decide

theorem witness_EncodeOfDecodeIsTheWord :
    decode Params.default (unpackWord 2147249023) = .instr (.cmpx ⟨.minus, 4095, some .r6⟩ ⟨5, 5⟩) := by decide

/-- I = 7, C above MAX_OPCODE; F = 10 of opcode 39 skipped and fatal; NOP refused; F = 9 of opcode 39 run. -/
theorem witness_StepFollowsTheDecodeOutcome :
    (let s := holding 100 (unpackWord 29000)
     s.runState = .running ∧ Inside s s.pc.toNat ∧ (s.mem.read 100).mag.toNat / 64 ^ 2 % 64 = 7) ∧
    (let s := { holding 100 (unpackWord 63) with params := { Params.default with maxOpcode := 62 } }
     s.params.maxOpcode.toNat < (s.mem.read 100).mag.toNat % 64) ∧
    (let s := holding 100 (unpackWord 679)
     ¬ legalF s.params ((s.mem.read 100).mag.toNat % 64) ((s.mem.read 100).mag.toNat / 64 % 64) ∧
       s.params.fieldError = .skip ∧
       { s.params with fieldError := .stop }.fieldError = .stop) ∧
    (let p := { Params.default with gkOpsAdmitted := false }
     legalF p 0 0 ∧ p.gkOpsAdmitted = false ∧ gkOperation 0) ∧
    (legalF Params.default 39 9 ∧ ¬ (Params.default.gkOpsAdmitted = false ∧ gkOperation 39)) := by decide

theorem witness_StepRunsTheDecodedInstruction : let s := { holding 3999 (unpackWord 133) with pc := 3999 }
    s.runState = .running ∧ Inside s s.pc.toNat ∧
      decode s.params (s.mem.read s.pc.toNat) = .instr (.hlt (plain 0)) := by decide

theorem witness_FetchOutsideMemoryFaults : let s := { at100 with pc := 4000 }
    s.runState = .running ∧ s.params.memSize ≤ s.pc.toNat := by decide

theorem witness_StepAnswersExactlyWhileRunning :
    at100.runState = .running ∧ { at100 with runState := .halted }.runState ≠ .running := by decide

theorem witness_EffectiveAddressIsTheIndexedSum :
    (plain 4095).index = none ∧ (⟨.minus, 4095, some .r3⟩ : Address).index = some .r3 := by decide

/-- The fields (0:0) and (5:5), bytes 1 and 5. -/
theorem witness_ExtractIsTheFieldRightJustified :
    (let f : Field := ⟨0, 0⟩; f.valid = true ∧ f.l.toNat = 0 ∧ f.r.toNat = 0) ∧
    (let f : Field := ⟨5, 5⟩; f.valid = true ∧ 5 < 5 + byteCount f ∧ ¬ 5 < 1 + byteCount f) := by decide

theorem witness_InsertReplacesTheFieldBytes : let f : Field := ⟨2, 5⟩
    f.valid = true ∧ (max f.l.toNat 1 ≤ 5 ∧ 5 ≤ f.r.toNat) ∧ ¬ (max f.l.toNat 1 ≤ 1 ∧ 1 ≤ f.r.toNat) := by decide

theorem witness_FieldEngineLaws : let f : Field := ⟨2, 3⟩
    f.valid = true ∧ ¬ (max f.l.toNat 1 ≤ 1 ∧ 1 ≤ f.r.toNat) ∧ f.l.toNat ≠ 0 ∧ 3 + byteCount f ≤ 5 := by decide

theorem witness_MemoryReadsTheLastWrite :
    Memory.wf [(0, word .plus 0 0 0 0 1), (3999, word .minus 0 0 0 0 0)] := by decide

/-- The first and the last address of memory. -/
theorem witness_LoadsOfAAndXComplete : Field.valid ⟨0, 5⟩ = true ∧
    Inside at100 (effective (plain 0) at100) ∧ Inside at100 (effective (plain 3999) at100) := by decide

/-- A field of magnitude 4095. -/
theorem witness_LoadsOfIndexRegistersComplete : let s := holding 3999 (word .minus 0 0 0 63 63)
    Field.valid ⟨0, 5⟩ = true ∧ Inside s (effective (plain 3999) s) ∧
      fieldMag (s.mem.read (effective (plain 3999) s).toNat) ⟨0, 5⟩ = 4095 := by decide

/-- A field of magnitude 4096, recorded and fatal; one of 4095; one of two bytes. -/
theorem witness_IndexLoadsOfWideValuesAreAnomalies :
    (let s := holding 2000 (word .plus 0 0 1 0 0)
     Field.valid ⟨0, 5⟩ = true ∧ Inside s (effective (plain 2000) s) ∧
       (fieldVal (s.mem.read (effective (plain 2000) s).toNat) ⟨0, 5⟩).natAbs = 4096 ∧
       s.params.indexAnomaly = .record) ∧
    { Params.default with indexAnomaly := .stop }.indexAnomaly = .stop ∧
    (fieldVal (word .plus 0 0 0 63 63) ⟨0, 5⟩).natAbs = 4095 ∧ byteCount ⟨4, 5⟩ = 2 := by decide

theorem witness_MemoryOperandOutsideMemoryFaults :
    memoryOperand (.lda (plain 4000) ⟨0, 5⟩) = some (plain 4000) ∧
    ¬ Inside at100 (effective (plain 4000) at100) ∧ ¬ Inside at100 (effective ⟨.minus, 1, none⟩ at100) := by decide

theorem witness_StoresInsertTheFieldAtM : let s := holding 3999 w12345
    Field.valid ⟨0, 0⟩ = true ∧ Memory.wf s.mem ∧ Inside s (effective (plain 3999) s) := by decide

theorem witness_AddAndSubtractComplete : Field.valid ⟨5, 5⟩ = true ∧
    Inside at100 (effective (plain 3999) at100) := by decide

theorem witness_MultiplyCompletes : Field.valid ⟨1, 1⟩ = true ∧
    Inside at100 (effective (plain 0) at100) := by decide

/-- |rA| = |V| − 1. -/
theorem witness_DivideCompletes : let s := { holding 1000 (word .minus 0 0 0 0 5) with rA := word .plus 0 0 0 0 4 }
    Field.valid ⟨0, 5⟩ = true ∧ Inside s (effective (plain 1000) s) ∧
      s.rA.mag.toNat < fieldMag (s.mem.read (effective (plain 1000) s).toNat) ⟨0, 5⟩ := by decide

/-- |V| = |rA|, and |V| = 0. -/
theorem witness_DivideOverflowSetsOV :
    (let s := { holding 1000 (word .minus 0 0 0 0 5) with rA := word .plus 0 0 0 0 5 }
     Field.valid ⟨0, 5⟩ = true ∧ Inside s (effective (plain 1000) s) ∧
       fieldMag (s.mem.read (effective (plain 1000) s).toNat) ⟨0, 5⟩ ≤ s.rA.mag.toNat) ∧
    fieldMag (at100.mem.read (effective (plain 1000) at100).toNat) ⟨0, 5⟩ = 0 := by decide

/-- Sums of magnitude 64^5 − 1, and a quotient. -/
theorem witness_ArithmeticValueLaws :
    (let s := { holding 1000 (word .plus 0 0 0 0 1) with rA := word .plus 63 63 63 63 62 }
     (∃ t, exec (.add (plain 1000) ⟨0, 5⟩) s = .next t) ∧ (s.rA.val + fieldVal (s.mem.read 1000) ⟨0, 5⟩).natAbs < 64 ^ 5) ∧
    (let s := { holding 1000 (word .plus 0 0 0 0 1) with rA := word .minus 63 63 63 63 62 }
     (∃ t, exec (.sub (plain 1000) ⟨0, 5⟩) s = .next t) ∧ (s.rA.val - fieldVal (s.mem.read 1000) ⟨0, 5⟩).natAbs < 64 ^ 5) ∧
    (∃ t, exec (.mul (plain 1000) ⟨0, 5⟩) at100 = .next t) ∧
    (let s := { holding 1000 (word .minus 0 0 0 0 5) with rA := word .plus 0 0 0 0 4 }
     (∃ t, exec (.div (plain 1000) ⟨0, 5⟩) s = .next t) ∧
       s.rA.mag.toNat < fieldMag (s.mem.read (effective (plain 1000) s).toNat) ⟨0, 5⟩) :=
  ⟨⟨⟨_, rfl⟩, by decide⟩, ⟨⟨_, rfl⟩, by decide⟩, ⟨_, rfl⟩, ⟨⟨_, rfl⟩, by decide⟩⟩

theorem witness_ShiftsOfAComplete : 0 ≤ effective ⟨.minus, 0, none⟩ at100 ∧ 0 ≤ effective (plain 5) at100 := by decide
theorem witness_ShiftsOfAXComplete : 0 ≤ effective (plain 0) at100 ∧ 0 ≤ effective (plain 10) at100 := by decide
theorem witness_RotationsComplete : 0 ≤ effective (plain 0) at100 ∧ 0 ≤ effective (plain 4095) at100 := by decide

theorem witness_NegativeShiftCountFaults : effective ⟨.minus, 1, none⟩ at100 < 0 ∧ shifts.length = 6 := by decide

theorem witness_ComparesSetCI : Field.valid ⟨0, 0⟩ = true ∧ Inside at100 (effective (plain 3999) at100) ∧
    (compareTable at100).length = 8 := by decide

theorem witness_NegativeZeroComparesEqual : let s := { holding 1000 (word .minus 0 0 0 0 0) with rA := word .plus 0 0 0 0 0 }
    Field.valid ⟨0, 5⟩ = true ∧ Inside s (effective (plain 1000) s) ∧
      (s.mem.read (effective (plain 1000) s).toNat).mag = 0 ∧ (∀ x ∈ compareTable s, x.2.mag = 0) := by decide

/-- Taken to the last address, not taken, taken to the first address outside memory. -/
theorem witness_JumpsOfOpcode39 : (jumpTable at100).length = 10 ∧
    (jumpTable at100).any (·.taken) = true ∧ (jumpTable at100).any (fun r => !r.taken) = true ∧
    Inside at100 (effective (plain 3999) at100) ∧ ¬ Inside at100 (effective (plain 4000) at100) := by decide

theorem witness_RegisterTestJumps : (testTable at100).length = 48 ∧
    (testTable at100).any (·.2) = true ∧ (testTable at100).any (fun r => !r.2) = true ∧
    Inside at100 (effective (plain 3999) at100) ∧ ¬ Inside at100 (effective (plain 4000) at100) := by decide

/-- Sums of magnitude 4095 and 4096. -/
theorem witness_IncrementsOfIndexRegisters : let s := { at100 with rI1 := ⟨.plus, 4000⟩ }
    ((s.index .r1).val + effective (plain 95) s).natAbs < 4096 ∧
    4096 ≤ ((s.index .r1).val + effective (plain 96) s).natAbs ∧ s.params.indexAnomaly = .record ∧
    { s.params with indexAnomaly := .stop }.indexAnomaly = .stop := by decide

/-- |val(M)| = 4095 and 4096. -/
theorem witness_EntersOfIndexRegisters : let s := { at100 with rI1 := ⟨.plus, 4095⟩ }
    (effective (plain 4095) s).natAbs < 4096 ∧ (effective ⟨.plus, 1, some .r1⟩ s).natAbs = 4096 ∧
    s.params.indexAnomaly = .record := by decide

/-- The last word of memory copied by one, to leave rI1 = 4095. -/
theorem witness_MoveCopiesTheBlock :
    let s := { holding 4095 w12345 with rI1 := ⟨.plus, 4094⟩, params := { Params.default with memSize := 4096 } }
    let a := plain 4095
    Memory.wf s.mem ∧ (1 : BitVec 6) ≠ 0 ∧ Inside s (effective a s) ∧
      Inside s (effective a s + ((1 : BitVec 6).toNat : Int) - 1) ∧ Inside s s.rI1.val ∧
      Inside s (s.rI1.val + ((1 : BitVec 6).toNat : Int) - 1) ∧ s.rI1.val + ((1 : BitVec 6).toNat : Int) = 4095 := by
  decide

/-- A target block that leaves memory at its last word; rI1 + F = 4096 with both blocks in memory, the target
one word above the source, under either policy. -/
theorem witness_MoveFaultsBeforeAnyCopy :
    (let s := { at100 with rI1 := ⟨.plus, 3998⟩ }
     ∃ j : Nat, j < (3 : BitVec 6).toNat ∧
       (¬ Inside s (effective (plain 1000) s + j) ∨ ¬ Inside s (s.rI1.val + j))) ∧
    (let s := { holding 4092 w12345 with rI1 := ⟨.plus, 4093⟩, params := { Params.default with memSize := 4096 } }
     (∀ j : Nat, j < (3 : BitVec 6).toNat → Inside s (effective (plain 4092) s + j) ∧ Inside s (s.rI1.val + j)) ∧
       4096 ≤ s.rI1.val + ((3 : BitVec 6).toNat : Int) ∧ s.params.indexAnomaly = .record ∧ s.mem.wf ∧
       { s.params with indexAnomaly := .stop }.indexAnomaly = .stop) :=
  ⟨⟨2, by decide⟩, by decide⟩

/-- The oracle answers busy, and ready. -/
theorem witness_DeviceJumpsFollowTheAnswer :
    { at100 with oracle := [.answer true []] }.deviceAnswer .jbus 18 1000 = .answer true [] ∧
    { at100 with oracle := [.answer false []] }.deviceAnswer .jred 18 1000 = .answer false [] ∧
    Inside at100 (effective (plain 3999) at100) ∧ ¬ Inside at100 (effective (plain 4000) at100) := by decide

/-- A block of 16 words that ends at the end of memory. -/
theorem witness_IocAndOutComplete :
    let s := { at100 with oracle := [.answer false []],
                          params := { Params.default with ioBlock := .span [(16, 16)] } }
    s.deviceAnswer .ioc 16 (effective ⟨.minus, 1, none⟩ s) = .answer false [] ∧
    s.deviceAnswer .out 16 (effective (plain 3984) s) = .answer false [] ∧ Inside s (effective (plain 3984) s) ∧
    (∀ x ∈ blockAddresses s.params.ioBlock 16 (effective (plain 3984) s), Inside s x) := by decide

theorem witness_InWritesOnlyItsBlock :
    let s := { at100 with oracle := [.answer false [(3999, w12345)]],
                          params := { Params.default with ioBlock := .span [(16, 16)] } }
    Memory.wf s.mem ∧ s.deviceAnswer .inp 16 (effective (plain 3984) s) = .answer false [(3999, w12345)] ∧
    Inside s (effective (plain 3984) s) ∧
    (∀ x ∈ blockAddresses s.params.ioBlock 16 (effective (plain 3984) s), Inside s x) ∧
    inBlock s.params.ioBlock 16 (effective (plain 3984) s) 3999 = true ∧
    inBlock s.params.ioBlock 16 (effective (plain 3984) s) 3983 = false := by decide

theorem witness_DeviceFailureFaults : let s := { at100 with oracle := [.fail] }
    (∀ op ∈ [DeviceOp.jbus, .ioc, .inp, .out, .jred], s.deviceAnswer op 18 (effective (plain 1000) s) = .fail) ∧
    Inside s (effective (plain 1000) s) ∧
    (∀ x ∈ blockAddresses s.params.ioBlock 18 (effective (plain 1000) s), Inside s x) := by decide

/-- M outside memory; a block of 16 words that leaves memory by one. -/
theorem witness_BufferOutsideMemoryFaults :
    let s := { at100 with params := { Params.default with ioBlock := .span [(16, 16)] } }
    ¬ Inside s (effective (plain 4000) s) ∧
    (∃ x ∈ blockAddresses s.params.ioBlock 16 (effective (plain 3985) s), ¬ Inside s x) := by decide

/-- NOP writes no register, flag or memory, and completes. -/
theorem witness_RegistersChangeOnlyWhereNamed :
    let i := Instr.nop (plain 0) ⟨0, 0⟩
    (∃ t, exec i at100 = .next t) ∧ writesA i = false ∧ writesX i = false ∧ (∀ k, writesIndex i k = false) ∧
      writesJ i = false :=
  ⟨⟨_, rfl⟩, rfl, rfl, fun _ => rfl, rfl⟩

theorem witness_FlagsChangeOnlyWhereNamed :
    let s := { at100 with ov := true }
    (∃ t, exec (.nop (plain 0) ⟨0, 0⟩) s = .next t) ∧ setsOv s.params (.nop (plain 0) ⟨0, 0⟩) = false ∧
      clearsOv (.nop (plain 0) ⟨0, 0⟩) = false ∧ s.ov = true ∧ writesCi (.nop (plain 0) ⟨0, 0⟩) = false ∧
    (∃ t, exec (.jov (plain 1000)) s = .next t) ∧ clearsOv (.jov (plain 1000)) = true :=
  ⟨⟨_, rfl⟩, rfl, rfl, rfl, rfl, ⟨_, rfl⟩, rfl⟩

/-- STA at 1000 and the word at 1001; MOVE of one word to 2000; IN of a block of 16; NOP. -/
theorem witness_MemoryChangesOnlyWhereStored :
    let s := { holding 1000 w12345 with rI1 := ⟨.plus, 2000⟩, oracle := [.answer false []],
                                        params := { Params.default with ioBlock := .span [(16, 16)] } }
    Memory.wf s.mem ∧ (∃ t, exec (.sta (plain 1000) ⟨0, 5⟩) s = .next t) ∧
    storeAddress (.sta (plain 1000) ⟨0, 5⟩) = some (plain 1000) ∧ 1001 ≠ (effective (plain 1000) s).toNat ∧
    (∃ t, exec (.move (plain 1000) 1) s = .next t) ∧ (1999 : Int) < s.rI1.val ∧
    (∃ t, exec (.inp (plain 3984) 16) s = .next t) ∧
    inBlock s.params.ioBlock 16 (effective (plain 3984) s) 1000 = false ∧
    (∃ t, exec (.nop (plain 0) ⟨0, 0⟩) s = .next t) ∧ storeAddress (.nop (plain 0) ⟨0, 0⟩) = none :=
  ⟨by decide, ⟨_, rfl⟩, rfl, by decide, ⟨_, rfl⟩, by decide, ⟨_, rfl⟩, by decide, ⟨_, rfl⟩, rfl⟩

theorem witness_NextPcIsOneOnUnlessAJump :
    (∃ t, exec (.jmp (plain 3999)) at100 = .next t ∧ t.runState = .running) ∧
    (∃ t, exec (.hlt (plain 0)) at100 = .next t ∧ t.runState = .halted) ∧ at100.runState = .running :=
  ⟨⟨_, rfl, rfl⟩, ⟨_, rfl, rfl⟩, rfl⟩

theorem witness_FatalFaultsChangeNothingElse :
    (∃ t, step { at100 with pc := 4000 } = .next t ∧ t.runState = .faulted (.addressFault 4000) 4000) ∧
    (∃ t, step { at100 with params := { Params.default with gkOpsAdmitted := false } } = .next t ∧
      t.runState = .refused 100 0 0) :=
  ⟨⟨_, rfl, rfl⟩, ⟨_, rfl, rfl⟩⟩

theorem witness_OnlyHltHalts : ∃ t, step (holding 100 (unpackWord 133)) = .next t ∧ t.runState = .halted :=
  ⟨_, rfl, rfl⟩

/-- A device call, and a division by zero. -/
theorem witness_StepKeepsParametersAndAppendsToTheLog :
    (∃ t, step { holding 100 (unpackWord 1187) with oracle := [.answer false []] } = .next t ∧ t.calls = 1) ∧
    (∃ t, step (holding 100 (unpackWord 262144324)) = .next t ∧ t.draws = 2) :=
  ⟨⟨_, rfl, rfl⟩, ⟨_, rfl, rfl⟩⟩

theorem witness_EveryStepKeepsTheInvariant : State.reset.Inv ∧ ∃ t, step State.reset = .next t :=
  ⟨by decide, _, rfl⟩

/-- START at the end of the largest memory, and one past the end of the smallest. -/
theorem witness_LaunchLoadsTheState :
    (let p := { Params.default with memSize := 4096 }
     4000 ≤ p.memSize ∧ p.memSize ≤ 4096 ∧ [0, 2147483647].length ≤ p.memSize ∧
       (∀ n ∈ [0, 2147483647], n < 2 ^ 31) ∧ 4095 < p.memSize) ∧
    ¬ 4000 < Params.default.memSize := by decide


end Sys2Proof.Tests
end

/-! # Proofs of the statements about the state

Each instruction first changes only what its row of the state table names (`Frame`), then ends in one of five
ways (`ExecResult`).  `exec_answers` says this once for all 144 instructions, `step_answers` for a whole step;
the statements about registers, flags, the pc, the log and the invariant are read off these two. -/

namespace Sys2Proof.StateProofs

open Sys2Proof.Machine Sys2Proof.Claims Sys2Proof.Laws

/-! ## What an instruction may change, and how it ends -/

/-- Memory in its canonical form, with every address below `n`. -/
abbrev MemFits (n : Nat) (m : Memory) : Prop := m.wf ∧ m.below n

/-- Registers, flags and the model's own fields of `u` differ from those of `s` only where the state table (R40)
lets `i` write; memory still fits MEM_SIZE; control (pc, run state, log) is as it was. -/
structure Frame (i : Instr) (s u : State) : Prop where
  rA : writesA i = false → u.rA = s.rA
  rX : writesX i = false → u.rX = s.rX
  index : ∀ k, writesIndex i k = false → u.index k = s.index k
  rJ : writesJ i = false → u.rJ = s.rJ
  ov : setsOv s.params i = false → clearsOv i = false → u.ov = s.ov
  ovSticky : clearsOv i = false → s.ov = true → u.ov = true
  ci : writesCi i = false → u.ci = s.ci
  mem : MemFits s.params.memSize s.mem → MemFits s.params.memSize u.mem
  params : u.params = s.params
  devices : isIo i = false → u.oracle = s.oracle ∧ u.calls = s.calls
  draws : (∀ a f, i ≠ .div a f) → u.draws = s.draws
  pc : u.pc = s.pc
  log : u.log = s.log
  runState : u.runState = s.runState

/-- The five ways an instruction ends (R53, R56, R57, R320, R511). -/
inductive ExecResult (i : Instr) (s : State) : State → Prop
  | faults {e : Event} (he : e.fatal s.params = true) : ExecResult i s (s.setRun (.faulted e s.pc))
  | completes {u : State} (h : Frame i s u) : ExecResult i s (u.setPc (s.pc + 1))
  | records {u : State} {e : Event} (h : Frame i s u) (he : e.recordable s.params = true) :
      ExecResult i s ((u.record e).setPc (s.pc + 1))
  | jumps {u : State} (h : Frame i s u) (hj : isJump i = true)
      (hm : s.inMemory (effective (encodeParts i).2.2 s) = true) :
      ExecResult i s (u.setPc (BitVec.ofNat 13 (effective (encodeParts i).2.2 s).toNat))
  | halts {a : Address} (hi : i = .hlt a) : ExecResult i s ((s.setPc (s.pc + 1)).setRun .halted)

/-- The answer is a next state, reached in one of the five ways. -/
def Answers (i : Instr) (s : State) (ans : Answer) : Prop := ∃ t, ans = .next t ∧ ExecResult i s t

/-! ## One frame rule per update of the state -/

namespace Frame

variable {i : Instr} {s u : State}

theorem refl : Frame i s s where
  rA _ := rfl
  rX _ := rfl
  index _ _ := rfl
  rJ _ := rfl
  ov _ _ := rfl
  ovSticky _ h := h
  ci _ := rfl
  mem h := h
  params := rfl
  devices _ := ⟨rfl, rfl⟩
  draws _ := rfl
  pc := rfl
  log := rfl
  runState := rfl

theorem setRA {w : Word} (hw : writesA i = true) (h : Frame i s u) : Frame i s (u.setRA w) :=
  { h with
    rA := by simp [hw]
    index := by simpa using h.index }

theorem setRX {w : Word} (hw : writesX i = true) (h : Frame i s u) : Frame i s (u.setRX w) :=
  { h with
    rX := by simp [hw]
    index := by simpa using h.index }

theorem setJ {j : BitVec 12} (hw : writesJ i = true) (h : Frame i s u) : Frame i s (u.setJ j) :=
  { h with
    rJ := by simp [hw]
    index := by simpa using h.index }

theorem writeJ {taken : Bool} (hw : writesJ i = true) (h : Frame i s u) : Frame i s (u.writeJ taken) := by
  rw [State.writeJ_eq]
  exact h.setJ hw

theorem setCi {c : Comparison} (hw : writesCi i = true) (h : Frame i s u) : Frame i s (u.setCi c) :=
  { h with
    ci := by simp [hw]
    index := by simpa using h.index }

/-- OV is set: where the instruction may set it, or not at all. -/
theorem orOv {b : Bool} (hb : setsOv s.params i = false → b = false) (h : Frame i s u) : Frame i s (u.orOv b) :=
  { h with
    ov := fun hs hc => by simp [State.orOv_eq, hb hs, h.ov hs hc]
    ovSticky := fun hc ho => by simp [State.orOv_eq, h.ovSticky hc ho]
    index := by simpa [State.orOv_eq] using h.index }

theorem setOv_true (ho : setsOv s.params i = true) (h : Frame i s u) : Frame i s (u.setOv true) :=
  { h with
    ov := by simp [ho]
    ovSticky := by simp
    index := by simpa using h.index }

theorem clearOv (hc : clearsOv i = true) (h : Frame i s u) : Frame i s (u.setOv false) :=
  { h with
    ov := by simp [hc]
    ovSticky := by simp [hc]
    index := by simpa using h.index }

theorem setIndex {k : IndexReg} {w : IndexWord} (hw : writesIndex i k = true) (h : Frame i s u) :
    Frame i s (u.setIndex k w) where
  rA := by simpa using h.rA
  rX := by simpa using h.rX
  index j hj := by
    have hne : j ≠ k := by
      rintro rfl
      simp [hw] at hj
    simpa [hne] using h.index j hj
  rJ := by simpa using h.rJ
  ov := by simpa using h.ov
  ovSticky := by simpa using h.ovSticky
  ci := by simpa using h.ci
  mem := by simpa using h.mem
  params := by simpa using h.params
  devices := by simpa using h.devices
  draws := by simpa using h.draws
  pc := by simpa using h.pc
  log := by simpa using h.log
  runState := by simpa using h.runState

theorem setMem {m : Memory} (hm : MemFits s.params.memSize s.mem → MemFits s.params.memSize m)
    (h : Frame i s u) : Frame i s (u.setMem m) :=
  { h with
    mem := hm
    index := by simpa using h.index }

theorem answered (hi : isIo i = true) (h : Frame i s u) : Frame i s u.answered :=
  { h with
    devices := by simp [hi]
    index := by simpa using h.index }

theorem drawn {a : Address} {f : Field} (hi : i = .div a f) (h : Frame i s u) : Frame i s u.drawn :=
  { h with
    draws := fun hn => absurd hi (hn a f)
    index := by simpa using h.index }

end Frame

/-! ## One answer rule per shared operation -/

section Operations

variable {i : Instr} {s u : State}

theorem answers_raise {e : Event} (he : e.fatal s.params = true) : Answers i s (raise e s) :=
  ⟨_, rfl, .faults he⟩

theorem answers_complete (h : Frame i s u) : Answers i s (complete u) :=
  ⟨_, rfl, h.pc ▸ .completes h⟩

/-- An address outside memory makes a fatal AddressFault (R503). -/
theorem addressFault_fatal {a : Int} (h : s.inMemory a = false) : (Event.addressFault a).fatal s.params = true := by
  simp only [State.inMemory, Bool.and_eq_false_iff, decide_eq_false_iff_not] at h
  simp only [Event.fatal, Bool.or_eq_true, decide_eq_true_eq]
  omega

theorem answers_checked {a : Int} {k : Answer} (hk : s.inMemory a = true → Answers i s k) :
    Answers i s (checked a s k) := by
  unfold checked
  split
  · exact hk ‹_›
  · exact answers_raise (addressFault_fatal (Bool.eq_false_of_not_eq_true ‹_›))

theorem answers_checkedAll {as : List Int} {k : Answer} (hk : (∀ a ∈ as, s.inMemory a = true) → Answers i s k) :
    Answers i s (checkedAll as s k) := by
  unfold checkedAll
  split
  · rename_i a ha
    exact answers_raise (addressFault_fatal (by simpa using List.find?_some ha))
  · rename_i ha
    exact hk fun a hm => by simpa using List.find?_eq_none.mp ha a hm

theorem answers_withOperand {a : Address} {k : Word → Answer}
    (hk : ∀ w, s.inMemory (effective a s) = true → Answers i s (k w)) : Answers i s (withOperand a s k) :=
  answers_checked (hk _)

theorem answers_withCount {a : Address} {k : Nat → Answer} (hk : ∀ n, Answers i s (k n)) :
    Answers i s (withCount a s k) := by
  unfold withCount
  split
  · rename_i hneg
    exact answers_raise (by simpa [Event.fatal] using hneg)
  · exact hk _

theorem answers_withDevice {op : DeviceOp} {d : BitVec 6} {m : Int} {k : Bool → List (Nat × Word) → Answer}
    (hk : ∀ busy cells, Answers i s (k busy cells)) : Answers i s (withDevice op d m s k) := by
  unfold withDevice
  split
  · exact answers_raise rfl
  · exact hk _ _

/-- A write of rIk completes, or is an IndexAnomaly of the policy's kind (R57). -/
theorem answers_writeIndex {k : IndexReg} {sg : Sign} {v : Int} (hw : writesIndex i k = true) (h : Frame i s u) :
    Answers i s (writeIndex k sg v u s) := by
  have hdone := h.setIndex (w := ⟨sg, BitVec.ofNat 12 v.natAbs⟩) hw
  unfold writeIndex
  simp only
  split
  · exact answers_complete hdone
  · have hv : 4096 ≤ v.natAbs := by omega
    split
    · exact ⟨_, rfl, by
        rw [State.record_pc, hdone.pc]
        exact .records hdone (by simp [Event.recordable, *])⟩
    · exact answers_raise (by simp [Event.fatal, *])

/-- A jump goes on, goes to its target in memory, or faults on it (R320). -/
theorem answers_jump {taken : Bool} (hj : isJump i = true) (h : Frame i s u) :
    Answers i s (jump (effective (encodeParts i).2.2 s) taken u s) := by
  unfold jump
  split
  · exact answers_checked fun hm => ⟨_, rfl, .jumps h hj hm⟩
  · exact answers_complete h

end Operations

/-! ## One answer rule per family of instructions -/

section Families

variable {i : Instr} {s : State}

theorem frame_addToA {v : Int} (hA : writesA i = true) (ho : setsOv s.params i = true) :
    Frame i s (addToA v s) :=
  (Frame.refl.setRA hA).orOv (by simp [ho])

theorem frame_addToX {v : Int} (hX : writesX i = true) (ho : setsOv s.params i = true) :
    Frame i s (addToX v s) :=
  (Frame.refl.setRX hX).orOv (by simp [ho])

theorem frame_divOverflow {a : Address} {f : Field} : Frame (.div a f) s (divOverflow s) :=
  ((((Frame.refl.setRA rfl).setRX rfl).setOv_true rfl).drawn rfl).drawn rfl

/-- SLA and SLAX set OV under SHIFT_SETS_OVERFLOW alone (R282). -/
theorem frame_shiftOv {u : State} {bs : List Byte} {n : Nat} (ho : setsOv s.params i = s.params.shiftSetsOverflow)
    (h : Frame i s u) : Frame i s (shiftOv bs n u) :=
  h.orOv fun hs => by simp [h.params, ← ho, hs]

theorem frame_shiftAX {sh : List Byte → Nat → List Byte} {n : Nat} (hA : writesA i = true) (hX : writesX i = true) :
    Frame i s (shiftAX sh n s) :=
  (Frame.refl.setRA hA).setRX hX

theorem answers_loadIndex {k : IndexReg} {neg : Bool} {a : Address} {f : Field} (hw : writesIndex i k = true) :
    Answers i s (loadIndex k neg a f s) :=
  answers_withOperand fun _ _ => answers_writeIndex hw .refl

theorem answers_store {src : Word} {a : Address} {f : Field} : Answers i s (store src a f s) :=
  answers_withOperand fun old hin => answers_complete <| Frame.refl.setMem fun ⟨hwf, hb⟩ => by
    have := (State.inMemory_iff s _).mp hin
    exact ⟨Memory.write_wf hwf, Memory.write_below hb (by omega)⟩

theorem answers_compareField {r : Word} {a : Address} {f : Field} (hw : writesCi i = true) :
    Answers i s (compareField r a f s) :=
  answers_withOperand fun _ _ => answers_complete (Frame.refl.setCi hw)

theorem answers_linkJump {taken : Bool} (hj : isJump i = true) (hw : writesJ i = true) :
    Answers i s (linkJump (encodeParts i).2.2 taken s) :=
  answers_jump hj (Frame.refl.writeJ hw)

theorem answers_overflowJump {taken : Bool} (hj : isJump i = true) (hw : writesJ i = true)
    (hc : clearsOv i = true) : Answers i s (overflowJump (encodeParts i).2.2 taken s) :=
  answers_jump hj ((Frame.refl.writeJ hw).clearOv hc)

theorem answers_deviceJump {op : DeviceOp} {busy : Bool} {d : BitVec 6} (hj : isJump i = true)
    (hw : writesJ i = true) (hio : isIo i = true) : Answers i s (deviceJump op busy (encodeParts i).2.2 d s) :=
  answers_withDevice fun _ _ => answers_jump hj ((Frame.refl.answered hio).writeJ hw)

theorem answers_addToIndex {k : IndexReg} {v : Int} (hw : writesIndex i k = true) :
    Answers i s (addToIndex k v s) :=
  answers_writeIndex hw .refl

theorem answers_enterIndex {k : IndexReg} {sg : Sign} {a : Address} (hw : writesIndex i k = true) :
    Answers i s (enterIndex k sg a s) :=
  answers_writeIndex hw .refl

/-- A target block whose addresses are all in memory ends inside MEM_SIZE. -/
theorem moveTarget_le {src dst : Int} {n : Nat} (h : ∀ x ∈ moveAddresses src dst n, s.inMemory x = true)
    (hn : n ≠ 0) : dst.toNat + n ≤ s.params.memSize := by
  have inside {j : Nat} (hj : j < n) := (State.inMemory_iff s _).mp (h _ (mem_moveAddresses.mpr ⟨j, hj, .inr rfl⟩))
  have := inside (j := 0) (by omega)
  have := inside (j := n - 1) (by omega)
  omega

theorem answers_move {a : Address} {n : BitVec 6} : Answers (.move a n) s (execMove a n s) :=
  answers_checkedAll fun hin => answers_writeIndex rfl <| Frame.refl.setMem fun ⟨hwf, hb⟩ =>
    ⟨moveWords_wf hwf, moveWords_below hb (moveTarget_le hin)⟩

theorem answers_inp {a : Address} {d : BitVec 6} : Answers (.inp a d) s (execInp a d s) :=
  answers_checkedAll fun _ => answers_withDevice fun _ _ => answers_complete <|
    (Frame.refl.answered rfl).setMem fun ⟨hwf, hb⟩ => inputCells_wf hwf hb

theorem answers_div {a : Address} {f : Field} : Answers (.div a f) s (execDiv a f s) := by
  unfold execDiv withV
  refine answers_withOperand fun w _ => ?_
  simp only
  split
  · exact answers_complete ((Frame.refl.setRA rfl).setRX rfl)
  · exact answers_complete frame_divOverflow

end Families

/-! ## Every instruction, said once -/

/-- Every instruction answers a next state, changes only what the state table names for it, and ends in one of
the five ways. -/
theorem exec_answers (i : Instr) (s : State) : Answers i s (exec i s) := by
  cases i with
  | nop a f => exact answers_complete .refl
  | hlt a => exact ⟨_, rfl, .halts rfl⟩
  | add a f | sub a f => exact answers_withOperand fun _ _ => answers_complete (frame_addToA rfl rfl)
  | mul a f => exact answers_withOperand fun _ _ => answers_complete ((Frame.refl.setRA rfl).setRX rfl)
  | div a f => exact answers_div
  | num a => exact answers_complete (Frame.refl.setRA rfl)
  | char a => exact answers_complete ((Frame.refl.setRA rfl).setRX rfl)
  | sla a =>
    exact answers_withCount fun _ => answers_complete (frame_shiftOv rfl (Frame.refl.setRA rfl))
  | slax a =>
    exact answers_withCount fun _ => answers_complete (frame_shiftOv rfl (frame_shiftAX rfl rfl))
  | sra a => exact answers_withCount fun _ => answers_complete (Frame.refl.setRA rfl)
  | srax a | slc a | src a => exact answers_withCount fun _ => answers_complete (frame_shiftAX rfl rfl)
  | move a n => exact answers_move
  | lda a f | ldan a f => exact answers_withOperand fun _ _ => answers_complete (Frame.refl.setRA rfl)
  | ldx a f | ldxn a f => exact answers_withOperand fun _ _ => answers_complete (Frame.refl.setRX rfl)
  | ld1 a f | ld2 a f | ld3 a f | ld4 a f | ld5 a f | ld6 a f
  | ld1n a f | ld2n a f | ld3n a f | ld4n a f | ld5n a f | ld6n a f => exact answers_loadIndex rfl
  | sta a f | st1 a f | st2 a f | st3 a f | st4 a f | st5 a f | st6 a f | stx a f | stj a f | stz a f =>
    exact answers_store
  | jbus a d | jred a d => exact answers_deviceJump rfl rfl rfl
  | ioc a d => exact answers_withDevice fun _ _ => answers_complete (Frame.refl.answered rfl)
  | inp a d => exact answers_inp
  | out a d =>
    exact answers_checkedAll fun _ => answers_withDevice fun _ _ => answers_complete (Frame.refl.answered rfl)
  | jsj a => exact answers_jump (taken := true) rfl .refl
  | jov a | jnov a => exact answers_overflowJump rfl rfl rfl
  | jmp a => exact answers_linkJump (taken := true) rfl rfl
  | jl a | je a | jg a | jge a | jne a | jle a
  | jan a | jaz a | jap a | jann a | janz a | janp a | j1n a | j1z a | j1p a | j1nn a | j1nz a | j1np a
  | j2n a | j2z a | j2p a | j2nn a | j2nz a | j2np a | j3n a | j3z a | j3p a | j3nn a | j3nz a | j3np a
  | j4n a | j4z a | j4p a | j4nn a | j4nz a | j4np a | j5n a | j5z a | j5p a | j5nn a | j5nz a | j5np a
  | j6n a | j6z a | j6p a | j6nn a | j6nz a | j6np a | jxn a | jxz a | jxp a | jxnn a | jxnz a | jxnp a =>
    exact answers_linkJump rfl rfl
  | inca a | deca a => exact answers_complete (frame_addToA rfl rfl)
  | incx a | decx a => exact answers_complete (frame_addToX rfl rfl)
  | enta a | enna a => exact answers_complete (Frame.refl.setRA rfl)
  | entx a | ennx a => exact answers_complete (Frame.refl.setRX rfl)
  | inc1 a | dec1 a | inc2 a | dec2 a | inc3 a | dec3 a | inc4 a | dec4 a | inc5 a | dec5 a | inc6 a | dec6 a =>
    exact answers_addToIndex rfl
  | ent1 a | enn1 a | ent2 a | enn2 a | ent3 a | enn3 a | ent4 a | enn4 a | ent5 a | enn5 a | ent6 a | enn6 a =>
    exact answers_enterIndex rfl
  | cmpa a f | cmp1 a f | cmp2 a f | cmp3 a f | cmp4 a f | cmp5 a f | cmp6 a f | cmpx a f =>
    exact answers_compareField rfl

/-! ## A whole step -/

/-- What a step of a running block can come to: a fatal fault, a skipped FieldError, a refusal, or the decoded
instruction (R52, R160, R502, R509). -/
inductive StepResult (s : State) : State → Prop
  | faults {e : Event} (he : e.fatal s.params = true) : StepResult s (s.setRun (.faulted e s.pc))
  | skips {e : Event} (hin : s.inMemory s.pc.toNat = true) (he : e.recordable s.params = true) :
      StepResult s ((s.record e).setPc (s.pc + 1))
  | refuses {c f : BitVec 6} (hgk : s.params.gkOpsAdmitted = false) (hc : gkOpcode c = true) :
      StepResult s (s.setRun (.refused s.pc c f))
  | executes {i : Instr} {t : State} (hin : s.inMemory s.pc.toNat = true)
      (hd : decode s.params (s.mem.read s.pc.toNat) = .instr i) (ht : ExecResult i s t) : StepResult s t

/-- Only operations that are not admitted are refused (R146). -/
theorem decode_refused {p : Params} {w : Word} {c f : BitVec 6} (h : decode p w = .refused c f) :
    p.gkOpsAdmitted = false ∧ gkOpcode c = true := by
  simp only [decode] at h
  split at h
  · cases h
  · split at h
    · cases h
    · split at h
      · cases h
      · split at h
        · rename_i hgk
          cases h
          simpa using hgk
        · cases h

theorem step_of_running {s : State} (h : s.runState = .running) : step s = cycle s := by
  simp [step, h]

theorem step_of_ended {s : State} (h : s.runState ≠ .running) : step s = .fault .runEnded := by
  unfold step
  split
  · contradiction
  all_goals rfl

theorem cycle_of_outside {s : State} (h : s.inMemory s.pc.toNat = false) :
    cycle s = raise (.addressFault s.pc.toNat) s := by
  simp [cycle, fetch, h]

theorem cycle_of_inside {s : State} (h : s.inMemory s.pc.toNat = true) :
    cycle s = runWord (s.mem.read s.pc.toNat) s := by
  simp [cycle, fetch, h, State.word]

theorem runWord_answers {s : State} (hin : s.inMemory s.pc.toNat = true) :
    ∃ t, runWord (s.mem.read s.pc.toNat) s = .next t ∧ StepResult s t := by
  unfold runWord
  split
  · rename_i hd
    exact ⟨_, rfl, .faults (by simpa [Event.fatal] using hd)⟩
  · unfold fieldError
    split
    · exact ⟨_, rfl, .skips hin (by simp [Event.recordable, *])⟩
    · exact ⟨_, rfl, .faults (by simp [Event.fatal, *])⟩
  · rename_i hd
    exact ⟨_, rfl, .refuses (decode_refused hd).1 (decode_refused hd).2⟩
  · rename_i i hd
    obtain ⟨t, ht, hr⟩ := exec_answers i s
    exact ⟨t, ht, .executes hin hd hr⟩

/-- A running block always answers a next state, and one that a step can come to. -/
theorem step_answers {s : State} (h : s.runState = .running) : ∃ t, step s = .next t ∧ StepResult s t := by
  rw [step_of_running h]
  cases hin : s.inMemory s.pc.toNat with
  | false =>
    rw [cycle_of_outside hin]
    exact ⟨_, rfl, .faults (addressFault_fatal hin)⟩
  | true =>
    rw [cycle_of_inside hin]
    exact runWord_answers hin

/-! ## The two inversions -/

section Inversions

variable {i : Instr} {s t : State}

theorem exec_result (h : exec i s = .next t) : ExecResult i s t := by
  obtain ⟨t', ht', hr⟩ := exec_answers i s
  rw [ht'] at h
  cases h
  exact hr

theorem running_of_step (h : step s = .next t) : s.runState = .running := by
  by_contra hr
  simp [step_of_ended hr] at h

theorem step_result (h : step s = .next t) : StepResult s t := by
  obtain ⟨t', ht', hr⟩ := step_answers (running_of_step h)
  rw [ht'] at h
  cases h
  exact hr

/-- However an instruction ends, registers, flags, memory and the model's own fields are those of a frame. -/
theorem ExecResult.frame (h : ExecResult i s t) :
    ∃ u, Frame i s u ∧ ∃ p r l, t = { u with pc := p, runState := r, log := l } := by
  cases h with
  | faults he => exact ⟨s, .refl, _, _, _, rfl⟩
  | completes h => exact ⟨_, h, _, _, _, rfl⟩
  | records h he => exact ⟨_, h, _, _, _, rfl⟩
  | jumps h hj hm => exact ⟨_, h, _, _, _, rfl⟩
  | halts hi => exact ⟨s, .refl, _, _, _, rfl⟩

/-- An instruction that ends HALTED from a running state is HLT. -/
theorem ExecResult.hlt_of_halted (h : ExecResult i s t) (hr : s.runState = .running) (ht : t.runState = .halted) :
    ∃ a, i = .hlt a := by
  cases h with
  | faults he => simp at ht
  | completes hu => simp [hu.runState, hr] at ht
  | records hu he => simp [hu.runState, hr] at ht
  | jumps hu hj hm => simp [hu.runState, hr] at ht
  | halts hi => exact ⟨_, hi⟩

/-- An instruction adds at most one entry to the log, with its own pc. -/
theorem ExecResult.log_eq (h : ExecResult i s t) : t.log = s.log ∨ ∃ e, t.log = s.log ++ [⟨e, s.pc⟩] := by
  cases h with
  | faults he => exact .inl rfl
  | completes hu => exact .inl hu.log
  | @records u e hu he => exact .inr ⟨e, by simp [hu.log, hu.pc]⟩
  | jumps hu hj hm => exact .inl hu.log
  | halts hi => exact .inl rfl

/-- JOV and JNOV leave OV 0, unless their target is outside memory. -/
theorem overflowJump_ov {a : Address} {taken : Bool} (h : overflowJump a taken s = .next t) :
    t.ov = false ∨ ∃ x, t = faultedWith s (.addressFault x) := by
  rcases jump_next h with ⟨-, -, rfl⟩ | ⟨-, rfl⟩ | ⟨-, -, rfl⟩
  · exact .inl rfl
  · exact .inl rfl
  · exact .inr ⟨_, rfl⟩

theorem exec_clearsOv (hc : clearsOv i = true) (h : exec i s = .next t) :
    t.ov = false ∨ ∃ x, t = faultedWith s (.addressFault x) := by
  unfold clearsOv at hc
  split at hc
  · exact overflowJump_ov h
  · exact overflowJump_ov h
  · cases hc

end Inversions

/-! ## The invariant, one rule per way to end -/

section Invariant

variable {i : Instr} {s t u : State}

theorem legal_iff {p : Params} : p.legal = true ↔ 4000 ≤ p.memSize ∧ p.memSize ≤ 4096 := by
  simp [Params.legal]

theorem inv_setRun {r : RunState} (h : s.Inv) (hr : (s.setRun r).endingTrue = true) : (s.setRun r).Inv := by
  obtain ⟨hp, hwf, hb, hpc, hlog, -⟩ := h
  exact ⟨hp, hwf, hb, hpc, hlog, hr⟩

theorem inv_faulted {e : Event} (h : s.Inv) (he : e.fatal s.params = true) :
    (s.setRun (.faulted e s.pc)).Inv :=
  inv_setRun h (by simp [State.endingTrue, he])

theorem inv_refused {c f : BitVec 6} (h : s.Inv) (hgk : s.params.gkOpsAdmitted = false) (hc : gkOpcode c = true) :
    (s.setRun (.refused s.pc c f)).Inv :=
  inv_setRun h (by simp [State.endingTrue, hgk, hc])

theorem inv_setPc {p : BitVec 13} (h : s.Inv) (hr : s.runState = .running) (hp : p.toNat ≤ s.params.memSize) :
    (s.setPc p).Inv := by
  obtain ⟨hl, hwf, hb, -, hlog, -⟩ := h
  exact ⟨hl, hwf, hb, hp, hlog, by simp [State.endingTrue, hr]⟩

theorem inv_record {e : Event} (h : s.Inv) (he : e.recordable s.params = true) : (s.record e).Inv := by
  obtain ⟨hl, hwf, hb, hpc, hlog, hend⟩ := h
  refine ⟨hl, hwf, hb, hpc, fun x hx => ?_, hend⟩
  rcases List.mem_append.mp hx with hx | hx
  · exact hlog x hx
  · rw [List.mem_singleton.mp hx]
    exact he

theorem Frame.inv (h : Frame i s u) (hs : s.Inv) : u.Inv := by
  obtain ⟨hl, hwf, hb, hpc, hlog, hend⟩ := hs
  obtain ⟨hwf', hb'⟩ := h.mem ⟨hwf, hb⟩
  unfold State.Inv State.endingTrue
  rw [h.params, h.pc, h.log, h.runState]
  exact ⟨hl, hwf', hb', hpc, hlog, hend⟩

/-- From a pc in memory the next pc is at most MEM_SIZE. -/
theorem next_pc_le (hl : s.params.legal = true) (hin : s.inMemory s.pc.toNat = true) :
    (s.pc + 1).toNat ≤ s.params.memSize := by
  have := legal_iff.mp hl
  have := (State.inMemory_iff s _).mp hin
  rw [BitVec.toNat_add, show (1 : BitVec 13).toNat = 1 from rfl]
  omega

/-- A jump's target in memory is a pc below MEM_SIZE. -/
theorem target_pc_le {m : Int} (hl : s.params.legal = true) (hin : s.inMemory m = true) :
    (BitVec.ofNat 13 m.toNat).toNat ≤ s.params.memSize := by
  have := legal_iff.mp hl
  have := (State.inMemory_iff s _).mp hin
  rw [BitVec.toNat_ofNat]
  omega

theorem ExecResult.inv (h : ExecResult i s t) (hs : s.Inv) (hr : s.runState = .running)
    (hin : s.inMemory s.pc.toNat = true) : t.Inv := by
  have hl : s.params.legal = true := hs.1
  have hnext := next_pc_le hl hin
  cases h with
  | faults he => exact inv_faulted hs he
  | completes h => exact inv_setPc (h.inv hs) (h.runState.trans hr) (by rwa [h.params])
  | records h he =>
    exact inv_setPc (inv_record (h.inv hs) (by rwa [h.params])) (h.runState.trans hr)
      (by rwa [State.record_params, h.params])
  | jumps h hj hm =>
    exact inv_setPc (h.inv hs) (h.runState.trans hr) (by rw [h.params]; exact target_pc_le hl hm)
  | halts hi => exact inv_setRun (inv_setPc hs hr hnext) rfl

end Invariant

/-! ## The codecs -/

/-- A bit field is the vector of its number. -/
theorem extractLsb_eq {m n lo : Nat} {x : BitVec m} {v : BitVec n} (h : x.toNat / 2 ^ lo % 2 ^ n = v.toNat) :
    x.extractLsb' lo n = v :=
  BitVec.eq_of_toNat_eq ((extractLsb_toNat x lo n).trans h)

theorem packWord_unpackWord (v : BitVec 31) : packWord (unpackWord v) = v := by
  apply BitVec.eq_of_toNat_eq
  have := v.isLt
  simp only [packWord_toNat, unpackWord, signBit_bitSign, extractLsb_toNat]
  omega

/-- The sign of a word is the top bit of its packed form. -/
theorem packWord_signBit (w : Word) : (packWord w).extractLsb' 30 1 = signBit w.sign := by
  have := w.mag.isLt
  have := (signBit w.sign).isLt
  have := packWord_toNat w
  exact extractLsb_eq (by omega)

theorem packWord_mag (w : Word) : (packWord w).extractLsb' 0 30 = w.mag := by
  have := w.mag.isLt
  have := packWord_toNat w
  exact extractLsb_eq (by omega)

theorem unpackWord_packWord (w : Word) : unpackWord (packWord w) = w := by
  rw [unpackWord, packWord_signBit, packWord_mag, bitSign_signBit]

theorem packInstr_sign (x : Cell) : (packInstr x).sign = x.as := rfl

theorem unpackInstr_packInstr (x : Cell) : unpackInstr (packInstr x) = x := by
  obtain ⟨c, f, i, am, as⟩ := x
  have hmag := packInstr_toNat ⟨c, f, i, am, as⟩
  simp only at hmag
  have := c.isLt
  have := f.isLt
  have := i.isLt
  have := am.isLt
  simp only [unpackInstr, Cell.mk.injEq]
  exact ⟨extractLsb_eq (by omega), extractLsb_eq (by omega), extractLsb_eq (by omega), extractLsb_eq (by omega),
    rfl⟩

theorem packInstr_unpackInstr (w : Word) : packInstr (unpackInstr w) = w := by
  have hmag : (packInstr (unpackInstr w)).mag = w.mag := by
    apply BitVec.eq_of_toNat_eq
    have := w.mag.isLt
    simp only [packInstr_toNat, unpackInstr, extractLsb_toNat]
    omega
  exact congrArg (Word.mk w.sign) hmag

theorem signBit_weight (s : Sign) : (signBit s).toNat * 2 ^ 30 = if s = .minus then 2 ^ 30 else 0 := by
  cases s <;> rfl

/-! ## The statements -/

/-- Settles O55: one invariant rule per way a step can end. -/
theorem everyStepKeepsTheInvariant : Obligations.EveryStepKeepsTheInvariant := by
  intro s t hs hstep
  have hr := running_of_step hstep
  cases step_result hstep with
  | faults he => exact inv_faulted hs he
  | skips hin he => exact inv_setPc (inv_record hs he) hr (next_pc_le hs.1 hin)
  | refuses hgk hc => exact inv_refused hs hgk hc
  | executes hin hd ht => exact ht.inv hs hr hin

/-- Settles O8: a running block answers (`step_answers`), an ended one does not. -/
theorem stepAnswersExactlyWhileRunning : Obligations.StepAnswersExactlyWhileRunning := by
  intro s
  refine ⟨fun hr => ?_, step_of_ended⟩
  obtain ⟨t, ht, -⟩ := step_answers hr
  exact ⟨t, ht⟩

/-- Settles O47: `exec_answers` covers all 144 constructors. -/
theorem everyInstructionAnswersANextState : Obligations.EveryInstructionAnswersANextState := by
  intro i s
  obtain ⟨t, ht, -⟩ := exec_answers i s
  exact ⟨t, ht⟩

/-- Settles O48: the register fields of the instruction's frame. -/
theorem registersChangeOnlyWhereNamed : Obligations.RegistersChangeOnlyWhereNamed := by
  intro i s t h
  obtain ⟨u, hu, p, r, l, rfl⟩ := (exec_result h).frame
  exact ⟨hu.rA, hu.rX, hu.index, hu.rJ⟩

/-- Settles O49: the flag fields of the instruction's frame, and the jumps that clear OV. -/
theorem flagsChangeOnlyWhereNamed : Obligations.FlagsChangeOnlyWhereNamed := by
  intro i s t h
  have hclear := fun hc => exec_clearsOv hc h
  obtain ⟨u, hu, p, r, l, rfl⟩ := (exec_result h).frame
  exact ⟨hu.ov, hu.ovSticky, hclear, hu.ci⟩

/-- Settles O51: every way to end but a fault and a taken jump leaves pc one on. -/
theorem nextPcIsOneOnUnlessAJump : Obligations.NextPcIsOneOnUnlessAJump := by
  intro i s t h hend hr
  cases exec_result h with
  | faults he => simp at hend
  | completes hu => exact .inl rfl
  | records hu he => exact .inl rfl
  | jumps hu hj hm => exact .inr ⟨hj, (State.inMemory_iff s _).mp hm, rfl⟩
  | halts hi => exact .inl rfl

/-- Settles O53: of all a step can come to, only an instruction can halt, and only HLT. -/
theorem onlyHltHalts : Obligations.OnlyHltHalts := by
  intro s t hstep ht
  have hr := running_of_step hstep
  cases step_result hstep with
  | faults he => simp at ht
  | skips hin he => simp [hr] at ht
  | refuses hgk hc => simp at ht
  | executes hin hd hx =>
    obtain ⟨a, rfl⟩ := hx.hlt_of_halted hr ht
    exact ⟨a, hd⟩

/-- Settles O54: the log by the way the step ends, the rest by the instruction's frame. -/
theorem stepKeepsParametersAndAppendsToTheLog : Obligations.StepKeepsParametersAndAppendsToTheLog := by
  intro s t hstep
  cases step_result hstep with
  | faults he => exact ⟨rfl, .inl rfl, by simp, by simp⟩
  | skips hin he => exact ⟨rfl, .inr ⟨_, rfl⟩, by simp, by simp⟩
  | refuses hgk hc => exact ⟨rfl, .inl rfl, by simp, by simp⟩
  | @executes i _ hin hd hx =>
    have hlog := hx.log_eq
    obtain ⟨u, hu, p, r, l, rfl⟩ := hx.frame
    refine ⟨hu.params, hlog, fun hne => ⟨i, ?_, hd⟩, fun hne => ?_⟩
    · by_contra hio
      obtain ⟨ho, hc⟩ := hu.devices (Bool.eq_false_of_not_eq_true hio)
      exact hne.elim (· ho) (· hc)
    · by_contra hdiv
      exact hne (hu.draws fun a f hi => hdiv ⟨a, f, hi ▸ hd⟩)

/-- Settles O6: fetch and decode of a pc in memory leave `exec` alone. -/
theorem stepRunsTheDecodedInstruction : Obligations.StepRunsTheDecodedInstruction := by
  intro s i hr hin hd
  rw [step_of_running hr, cycle_of_inside ((State.inMemory_iff s _).mpr hin), runWord, hd]

/-- Settles O7: the fetch fails and its AddressFault is the whole step. -/
theorem fetchOutsideMemoryFaults : Obligations.FetchOutsideMemoryFaults := by
  intro s hr hpc
  have hout : s.inMemory s.pc.toNat = false := by
    rw [← Bool.not_eq_true, State.inMemory_iff]
    omega
  rw [step_of_running hr, cycle_of_outside hout]
  rfl

/-- Settles O1: the four round trips, and the packed words as sums of weighted fields. -/
theorem codecsAreInverseAndPlaceTheBits : Obligations.CodecsAreInverseAndPlaceTheBits := by
  refine ⟨packWord_unpackWord, unpackWord_packWord, unpackInstr_packInstr, packInstr_unpackInstr,
    fun w => ?_, fun x => ?_⟩
  · rw [packWord_toNat, signBit_weight, mag_eq_bytes]
    omega
  · rw [packWord_toNat, packInstr_toNat, packInstr_sign, signBit_weight]
    omega

end Sys2Proof.StateProofs

/-! # Proofs of the statements about the field engine and memory

The field engine is described byte by byte: an extract is a shift and a mask, an insert is `wordByte_insert`.
An instruction leaves memory in one of four ways (`MemResult`): `exec_leavesMem` says so once for all 144
instructions, and the statement about memory is read off it with one frame rule per way. -/

namespace Sys2Proof.MemoryProofs

open Sys2Proof.Machine Sys2Proof.Claims

/-! ## The field engine, byte by byte -/

section FieldEngine

variable {f : Field} {i : Nat}

/-- L is 0 as a bit vector where it is 0 as a number. -/
theorem fieldL_eq_zero (f : Field) : f.l = 0 ↔ f.l.toNat = 0 :=
  BitVec.toNat_inj.symm

theorem extractField_sign (w : Word) (f : Field) :
    (extractField w f).sign = if f.l.toNat = 0 then w.sign else .plus := by
  simp only [extractField, fieldL_eq_zero]

theorem insertField_sign (d v : Word) (f : Field) :
    (insertField d f v).sign = if f.l.toNat = 0 then v.sign else d.sign := by
  simp only [insertField, fieldL_eq_zero]

/-- Masking keeps the low `n` bytes and zeroes the others. -/
theorem wordByte_and_byteMask (sg : Sign) (w : Word) (n : Nat) (h1 : 1 ≤ i) (h5 : i ≤ 5) :
    wordByte ⟨sg, w.mag &&& byteMask n⟩ i = if 5 < i + n then wordByte w i else 0 := by
  apply BitVec.eq_of_getLsbD_eq
  intro j hj
  have hlow : 6 * (5 - i) + j < 6 * n ↔ 5 < i + n := by omega
  rw [wordByte_getLsbD _ _ hj, BitVec.getLsbD_and, byteMask_getLsbD _ (by omega), decide_eq_decide.mpr hlow]
  split
  · rw [wordByte_getLsbD _ _ hj, decide_eq_true ‹_›, Bool.and_true]
  · rw [decide_eq_false ‹_›, Bool.and_false]
    exact BitVec.getLsbD_zero.symm

/-- A right shift by `k` bytes moves byte i - k to byte i. -/
theorem wordByte_ushiftRight (sg : Sign) (w : Word) {k : Nat} (hk : k ≤ i) (h5 : i ≤ 5) :
    wordByte ⟨sg, w.mag >>> (6 * k)⟩ i = wordByte w (i - k) := by
  apply BitVec.eq_of_getLsbD_eq
  intro j hj
  have hbit : 6 * k + (6 * (5 - i) + j) = 6 * (5 - (i - k)) + j := by omega
  rw [wordByte_getLsbD _ _ hj, wordByte_getLsbD _ _ hj, BitVec.getLsbD_ushiftRight, hbit]

/-- Byte i of an extract: the field's bytes right-justified, 0 above them (20_memory.md R100). -/
theorem wordByte_extract (w : Word) (h : f.valid = true) (h1 : 1 ≤ i) (h5 : i ≤ 5) :
    wordByte (extractField w f) i = if 5 < i + byteCount f then wordByte w (f.r.toNat + i - 5) else 0 := by
  have hshift := wordByte_and_byteMask (extractField w f).sign
    ⟨.plus, w.mag >>> (6 * (5 - f.r.toNat))⟩ (byteCount f) h1 h5
  refine hshift.trans ?_
  split
  · have hr := (field_valid h).1
    have hk : 5 - f.r.toNat ≤ i := by
      simp only [byteCount] at *
      omega
    rw [wordByte_ushiftRight _ _ hk h5]
    congr 1
    omega
  · rfl

/-- The low `n` bytes as a number (`byteMask_and`), put back into a magnitude. -/
theorem and_byteMask (m : BitVec 30) {n : Nat} (h : n ≤ 5) :
    m &&& byteMask n = BitVec.ofNat 30 (m.toNat % 64 ^ n) := by
  rw [← byteMask_and m h, BitVec.ofNat_toNat, BitVec.setWidth_eq]

theorem byteCount_le (h : f.valid = true) : byteCount f ≤ 5 := by
  have hr := (field_valid h).1
  unfold byteCount
  omega

/-- An extract of (0:0) is the sign alone (20_memory.md R100). -/
theorem extractField_signOnly (w : Word) (hl : f.l.toNat = 0) (hr : f.r.toNat = 0) :
    extractField w f = ⟨w.sign, 0⟩ := by
  have hn : fieldBytes f = 0 := by simp [fieldBytes, fieldFirst, hl, hr]
  have hm : byteMask 0 = 0 := rfl
  simp [extractField, (fieldL_eq_zero f).mpr hl, hn, hm]

/-! ### The four laws of R104 -/

theorem insertField_extractField (w : Word) (h : f.valid = true) : insertField w f (extractField w f) = w := by
  apply word_ext_bytes
  · rw [insertField_sign, extractField_sign]
    split <;> rfl
  · intro i h1 h5
    rw [wordByte_insert _ _ h h1 h5]
    split
    · rename_i hin
      obtain ⟨hfirst, hlast⟩ := hin
      have hr := (field_valid h).1
      have hlow : 5 < i + 5 - f.r.toNat + byteCount f := by
        simp only [fieldFirst, byteCount] at *
        omega
      rw [wordByte_extract _ h (by omega) (by omega), if_pos hlow]
      congr 1
      omega
    · rfl

theorem extractField_insertField (d v : Word) (h : f.valid = true) :
    extractField (insertField d f v) f =
      ⟨if f.l.toNat = 0 then v.sign else .plus, BitVec.ofNat 30 (v.mag.toNat % 64 ^ byteCount f)⟩ := by
  rw [← and_byteMask _ (byteCount_le h)]
  apply word_ext_bytes
  · rw [extractField_sign, insertField_sign]
    split <;> rfl
  · intro i h1 h5
    rw [wordByte_extract _ h h1 h5, wordByte_and_byteMask _ _ _ h1 h5]
    split
    · have hr := (field_valid h).1
      have hin : fieldFirst f ≤ f.r.toNat + i - 5 ∧ f.r.toNat + i - 5 ≤ f.r.toNat := by
        simp only [fieldFirst, byteCount] at *
        omega
      have h1' : 1 ≤ f.r.toNat + i - 5 := Nat.le_trans (Nat.le_max_right _ _) hin.1
      rw [wordByte_insert _ _ h h1' (by omega), if_pos hin]
      congr 1
      omega
    · rfl

/-- Outside the field an insert leaves the target's bytes. -/
theorem wordByte_insert_outside (d v : Word) (h : f.valid = true) (h1 : 1 ≤ i) (h5 : i ≤ 5)
    (hout : ¬ (max f.l.toNat 1 ≤ i ∧ i ≤ f.r.toNat)) : wordByte (insertField d f v) i = wordByte d i :=
  (wordByte_insert d v h h1 h5).trans (if_neg hout)

theorem extractField_mag_lt (w : Word) (h : f.valid = true) :
    (extractField w f).mag.toNat < 64 ^ byteCount f := by
  rw [extract_toNat w h]
  exact Nat.mod_lt _ (Nat.pow_pos (by decide))

theorem wordByte_extract_above (w : Word) (h : f.valid = true) (h1 : 1 ≤ i) (h5 : i + byteCount f ≤ 5) :
    wordByte (extractField w f) i = 0 := by
  rw [wordByte_extract w h h1 (by omega), if_neg (by omega)]

end FieldEngine

/-! ## Reads after writes -/

theorem read_cons (c b : Nat) (v : Word) (m : Memory) :
    Memory.read ((c, v) :: m) b = if b = c then v else m.read b := rfl

/-- A word below every listed address, put in front of the list unless it is +0, is read back. -/
theorem read_ite_cons {m : Memory} {a : Nat} (ha : ∀ c ∈ m, a < c.1) (w : Word) (b : Nat) :
    Memory.read (if w = Word.zero then m else (a, w) :: m) b = if b = a then w else m.read b := by
  split
  · rename_i hw
    split
    · rename_i hb
      rw [hb, hw, Memory.read_of_lt ha]
    · rfl
  · exact read_cons a b w m

/-- A read after a write, at the written address and at any other (20_memory.md R110). -/
theorem read_write {m : Memory} (hm : m.wf) (a b : Nat) (w : Word) :
    (m.write a w).read b = if b = a then w else m.read b := by
  induction m with
  | nil => exact read_ite_cons (by simp) w b
  | cons x m ih =>
    obtain ⟨c, v⟩ := x
    obtain ⟨hsorted, hnonzero⟩ := hm
    obtain ⟨hc, hsorted'⟩ := List.pairwise_cons.mp hsorted
    have htail := ih ⟨hsorted', fun y hy => hnonzero y (List.mem_cons_of_mem _ hy)⟩
    rcases Nat.lt_trichotomy a c with hac | rfl | hac
    · have hfirst : ∀ y ∈ (c, v) :: m, a < y.1 :=
        List.forall_mem_cons.mpr ⟨hac, fun y hy => Nat.lt_trans hac (hc y hy)⟩
      rw [Memory.write, if_pos hac]
      exact read_ite_cons hfirst w b
    · rw [Memory.write, if_neg (Nat.lt_irrefl a), if_pos rfl, read_ite_cons hc, read_cons]
      split <;> rfl
    · rw [Memory.write, if_neg (by omega), if_neg (by omega), read_cons, read_cons, htail]
      by_cases hb : b = c
      · rw [if_pos hb, if_pos hb, if_neg (by omega)]
      · rw [if_neg hb, if_neg hb]

theorem read_write_ne {m : Memory} {a b : Nat} {w : Word} (hm : m.wf) (hb : b ≠ a) :
    (m.write a w).read b = m.read b := by
  rw [read_write hm, if_neg hb]

/-- MOVE's copy writes its target block alone (R474). -/
theorem read_moveWords {m : Memory} {src dst n b : Nat} (hm : m.wf) (hb : b < dst ∨ dst + n ≤ b) :
    (moveWords src dst n m).read b = m.read b := by
  induction n generalizing src dst m with
  | zero => rfl
  | succ n ih =>
    rw [moveWords, ih (Memory.write_wf hm) (by omega), read_write_ne hm (by omega)]

/-- IN writes its block alone (R483). -/
theorem read_inputCells {p : Params} {u : BitVec 6} {x : Int} {b : Nat} (hb : inBlock p.ioBlock u x b = false)
    {cs : List (Nat × Word)} {m : Memory} (hm : m.wf) : (inputCells p u x cs m).read b = m.read b := by
  induction cs generalizing m with
  | nil => rfl
  | cons c cs ih =>
    obtain ⟨y, w⟩ := c
    rw [inputCells]
    split
    · rename_i hy
      have hne : b ≠ y := by
        rintro rfl
        simp [hb] at hy
      rw [ih (Memory.write_wf hm), read_write_ne hm hne]
    · exact ih hm

/-! ## Operands outside memory -/

theorem checked_of_outside {a : Int} {s : State} {k : Answer} (h : ¬ Inside s a) :
    checked a s k = .next (faultedWith s (.addressFault a)) := by
  rw [checked, if_neg (mt (State.inMemory_iff s a).mp h)]
  rfl

/-- The instructions that read or write the one word at M first check M (R92): one `rfl` for each row of
`memoryOperand`. -/
theorem exec_eq_checked {i : Instr} {a : Address} (h : memoryOperand i = some a) (s : State) :
    ∃ k, exec i s = checked (effective a s) s k := by
  unfold memoryOperand at h
  split at h <;> cases h
  all_goals exact ⟨_, rfl⟩

/-! ## What an instruction leaves in memory -/

/-- The four ways an instruction leaves memory (R92, R474, R483). -/
inductive MemResult (s : State) : Instr → Memory → Prop
  | same {i : Instr} : MemResult s i s.mem
  | stores {i : Instr} {a : Address} (ha : storeAddress i = some a) (w : Word) :
      MemResult s i (s.mem.write (effective a s).toNat w)
  | moves {a : Address} {n : BitVec 6} (src : Nat) (hdst : n.toNat ≠ 0 → 0 ≤ s.rI1.val) :
      MemResult s (.move a n) (moveWords src s.rI1.val.toNat n.toNat s.mem)
  | inputs {a : Address} {u : BitVec 6} (cells : List (Nat × Word)) :
      MemResult s (.inp a u) (inputCells s.params u (effective a s) cells s.mem)

/-- Every next state of an answer has a memory that the instruction may leave. -/
def LeavesMem (s : State) (i : Instr) (ans : Answer) : Prop := ∀ t, ans = .next t → MemResult s i t.mem

section Operations

variable {s u : State} {i : Instr}

theorem leavesMem_complete (h : MemResult s i u.mem) : LeavesMem s i (complete u) := by
  intro t ht
  rwa [complete_next ht]

theorem leavesMem_checked {a : Int} {k : Answer} (hk : LeavesMem s i k) : LeavesMem s i (checked a s k) := by
  intro t ht
  rcases checked_next ht with ⟨-, ht⟩ | ⟨-, rfl⟩
  · exact hk t ht
  · exact .same

theorem leavesMem_checkedAll {as : List Int} {k : Answer}
    (hk : (∀ a ∈ as, s.inMemory a = true) → LeavesMem s i k) : LeavesMem s i (checkedAll as s k) := by
  intro t ht
  rcases checkedAll_next ht with ⟨hin, ht⟩ | ⟨_, -, -, rfl⟩
  · exact hk hin t ht
  · exact .same

theorem leavesMem_withCount {a : Address} {k : Nat → Answer} (hk : ∀ n, LeavesMem s i (k n)) :
    LeavesMem s i (withCount a s k) := by
  intro t ht
  rcases withCount_next ht with ⟨-, ht⟩ | ⟨-, rfl⟩
  · exact hk _ t ht
  · exact .same

theorem leavesMem_withDevice {op : DeviceOp} {d : BitVec 6} {m : Int} {k : Bool → List (Nat × Word) → Answer}
    (hk : ∀ busy cells, LeavesMem s i (k busy cells)) : LeavesMem s i (withDevice op d m s k) := by
  intro t ht
  rcases withDevice_next ht with ⟨-, rfl⟩ | ⟨busy, cells, -, ht⟩
  · exact .same
  · exact hk busy cells t ht

theorem leavesMem_writeIndex {k : IndexReg} {sg : Sign} {v : Int} (h : MemResult s i u.mem) :
    LeavesMem s i (writeIndex k sg v u s) := by
  intro t ht
  rcases writeIndex_next ht with ⟨-, rfl⟩ | ⟨-, -, rfl⟩ | ⟨-, -, rfl⟩
  · simpa using h
  · simpa using h
  · exact .same

theorem leavesMem_jump {m : Int} {taken : Bool} (h : u.mem = s.mem) : LeavesMem s i (jump m taken u s) := by
  intro t ht
  have hmem : t.mem = s.mem := by
    rcases jump_next ht with ⟨-, -, rfl⟩ | ⟨-, rfl⟩ | ⟨-, -, rfl⟩
    · exact h
    · exact h
    · rfl
  exact hmem ▸ .same

theorem leavesMem_linkJump {a : Address} {taken : Bool} : LeavesMem s i (linkJump a taken s) :=
  leavesMem_jump (State.writeJ_mem s taken)

theorem leavesMem_overflowJump {a : Address} {taken : Bool} : LeavesMem s i (overflowJump a taken s) :=
  leavesMem_jump (State.writeJ_mem s taken)

theorem leavesMem_deviceJump {op : DeviceOp} {b : Bool} {a : Address} {d : BitVec 6} :
    LeavesMem s i (deviceJump op b a d s) :=
  leavesMem_withDevice fun _ _ => leavesMem_jump (State.writeJ_mem s.answered _)

theorem leavesMem_loadIndex {k : IndexReg} {neg : Bool} {a : Address} {f : Field} :
    LeavesMem s i (loadIndex k neg a f s) :=
  leavesMem_checked <| leavesMem_writeIndex .same

theorem leavesMem_store {src : Word} {a : Address} {f : Field} (ha : storeAddress i = some a) :
    LeavesMem s i (store src a f s) :=
  leavesMem_checked <| leavesMem_complete (.stores ha _)

theorem leavesMem_div {a : Address} {f : Field} : LeavesMem s i (execDiv a f s) := by
  refine leavesMem_checked ?_
  split
  · exact leavesMem_complete .same
  · exact leavesMem_complete .same

/-- MOVE has checked rI1 as the first address of its target block, where the block is not empty (R474). -/
theorem leavesMem_move {a : Address} {n : BitVec 6} : LeavesMem s (.move a n) (execMove a n s) := by
  refine leavesMem_checkedAll fun hin => leavesMem_writeIndex (.moves _ fun hn => ?_)
  have hfirst := hin s.rI1.val (mem_moveAddresses.mpr ⟨0, Nat.pos_of_ne_zero hn, .inr (by simp)⟩)
  exact ((State.inMemory_iff s _).mp hfirst).1

theorem leavesMem_inp {a : Address} {d : BitVec 6} : LeavesMem s (.inp a d) (execInp a d s) :=
  leavesMem_checkedAll fun _ => leavesMem_withDevice fun _ cells => leavesMem_complete (.inputs cells)

end Operations

/-- Every instruction leaves memory in one of the four ways. -/
theorem exec_leavesMem (i : Instr) (s : State) : LeavesMem s i (exec i s) := by
  cases i with
  | nop a f | num a | char a => exact leavesMem_complete .same
  | hlt a =>
    intro t ht
    rw [halt_next ht]
    exact .same
  | add a f | sub a f | mul a f | lda a f | ldan a f | ldx a f | ldxn a f
  | cmpa a f | cmp1 a f | cmp2 a f | cmp3 a f | cmp4 a f | cmp5 a f | cmp6 a f | cmpx a f =>
    refine leavesMem_checked (leavesMem_complete ?_)
    exact .same
  | div a f => exact leavesMem_div
  | sla a | sra a | slax a | srax a | slc a | src a =>
    refine leavesMem_withCount fun _ => leavesMem_complete ?_
    exact .same
  | move a n => exact leavesMem_move
  | ld1 a f | ld2 a f | ld3 a f | ld4 a f | ld5 a f | ld6 a f
  | ld1n a f | ld2n a f | ld3n a f | ld4n a f | ld5n a f | ld6n a f => exact leavesMem_loadIndex
  | sta a f | st1 a f | st2 a f | st3 a f | st4 a f | st5 a f | st6 a f | stx a f | stj a f | stz a f =>
    exact leavesMem_store rfl
  | jbus a d | jred a d => exact leavesMem_deviceJump
  | ioc a d => exact leavesMem_withDevice fun _ _ => leavesMem_complete .same
  | inp a d => exact leavesMem_inp
  | out a d =>
    exact leavesMem_checkedAll fun _ => leavesMem_withDevice fun _ _ => leavesMem_complete .same
  | jsj a => exact leavesMem_jump (taken := true) rfl
  | jov a | jnov a => exact leavesMem_overflowJump
  | jmp a => exact leavesMem_linkJump (taken := true)
  | jl a | je a | jg a | jge a | jne a | jle a
  | jan a | jaz a | jap a | jann a | janz a | janp a | j1n a | j1z a | j1p a | j1nn a | j1nz a | j1np a
  | j2n a | j2z a | j2p a | j2nn a | j2nz a | j2np a | j3n a | j3z a | j3p a | j3nn a | j3nz a | j3np a
  | j4n a | j4z a | j4p a | j4nn a | j4nz a | j4np a | j5n a | j5z a | j5p a | j5nn a | j5nz a | j5np a
  | j6n a | j6z a | j6p a | j6nn a | j6nz a | j6np a | jxn a | jxz a | jxp a | jxnn a | jxnz a | jxnp a =>
    exact leavesMem_linkJump
  | inca a | deca a | incx a | decx a | enta a | enna a | entx a | ennx a => exact leavesMem_complete .same
  | inc1 a | dec1 a | inc2 a | dec2 a | inc3 a | dec3 a | inc4 a | dec4 a | inc5 a | dec5 a | inc6 a | dec6 a
  | ent1 a | enn1 a | ent2 a | enn2 a | ent3 a | enn3 a | ent4 a | enn4 a | ent5 a | enn5 a | ent6 a | enn6 a =>
    exact leavesMem_writeIndex .same

/-! ## The statements -/

/-- Settles O10: the sign, the magnitude and each byte of an extract, and (0:0). -/
theorem extractIsTheFieldRightJustified : Obligations.ExtractIsTheFieldRightJustified := by
  intro w f h
  exact ⟨extractField_sign w f, extract_toNat w h, extractField_signOnly w, fun i => wordByte_extract w h⟩

/-- Settles O11: the sign and each byte of an insert. -/
theorem insertReplacesTheFieldBytes : Obligations.InsertReplacesTheFieldBytes := by
  intro d v f h
  exact ⟨insertField_sign d v f, fun i => wordByte_insert d v h⟩

/-- Settles O12: the two round trips by `word_ext_bytes`, the two frame laws by the bytes. -/
theorem fieldEngineLaws : Obligations.FieldEngineLaws := by
  intro w v f h
  refine ⟨insertField_extractField w h, extractField_insertField w v h,
    ⟨fun i => wordByte_insert_outside w v h, fun hl => ?_⟩,
    extractField_mag_lt w h, fun i => wordByte_extract_above w h⟩
  rw [insertField_sign, if_neg hl]

/-- Settles O13, by induction on the list that holds memory (`read_write`). -/
theorem memoryReadsTheLastWrite : Obligations.MemoryReadsTheLastWrite := by
  intro m a b w hm
  exact read_write hm a b w

/-- Settles O17: each of these instructions first checks M (`exec_eq_checked`). -/
theorem memoryOperandOutsideMemoryFaults : Obligations.MemoryOperandOutsideMemoryFaults := by
  intro i a s hi hout
  obtain ⟨k, hk⟩ := exec_eq_checked hi s
  rw [hk]
  exact checked_of_outside hout

/-- Settles O50: one frame rule for each way an instruction leaves memory. -/
theorem memoryChangesOnlyWhereStored : Obligations.MemoryChangesOnlyWhereStored := by
  intro i s t h hm b
  have hmem := exec_leavesMem i s t h
  generalize t.mem = m at hmem
  cases hmem with
  | same => exact ⟨fun _ _ _ => rfl, fun _ _ _ _ => rfl, fun _ _ _ _ => rfl, fun _ _ _ => rfl⟩
  | stores ha w =>
    refine ⟨fun a' ha' hb => ?_, ?_, ?_, fun hnone => by simp [hnone] at ha⟩
    · obtain rfl := Option.some.inj (ha.symm.trans ha')
      exact read_write_ne hm hb
    · rintro a n rfl
      cases ha
    · rintro a u rfl
      cases ha
  | moves src hdst =>
    refine ⟨nofun, fun a n hi hb => ?_, nofun, fun _ hi _ => absurd rfl (hi _ _)⟩
    cases hi
    exact read_moveWords hm (by omega)
  | inputs cells =>
    refine ⟨nofun, nofun, fun a u hi hb => ?_, fun _ _ hi => absurd rfl (hi _ _)⟩
    cases hi
    exact read_inputCells hb hm

end Sys2Proof.MemoryProofs

/-! # Proofs of the statements about the encoding

`decodeOp_encodeParts` reads every instruction back from its own C, F and address part; `decodeOp_reads` says what
each of the 64 opcodes reads: instructions whose own C, F and address part these are, and one exactly where F is
legal. The round trips and the four decode outcomes of R160 are read off these two. -/

namespace Sys2Proof.EncodingProofs

open Sys2Proof.Machine Sys2Proof.Claims Sys2Proof.Laws Sys2Proof.StateProofs

/-! ## The opcode map -/

section OpcodeMap

variable {p : Params} {c f : BitVec 6} {a : Address} {i : Instr}

theorem withField_eq_some {mk : Field → Instr} :
    withField f mk = some i ↔ (fieldOf f).valid = true ∧ mk (fieldOf f) = i := by
  simp [withField]

theorem withUnit_eq_some {mk : BitVec 6 → Instr} :
    withUnit p f mk = some i ↔ p.ioUnits.contains f = true ∧ mk f = i := by
  simp [withUnit]

theorem withField_fieldByte {mk : Field → Instr} {g : Field} (hg : g.valid = true) :
    withField (fieldByte g) mk = some (mk g) := by
  simp [withField, hg]

/-- R135, R145: the byte of a valid field, in arithmetic on F. -/
theorem fieldOf_valid_iff (f : BitVec 6) :
    (fieldOf f).valid = true ↔ f.toNat % 8 ≤ 5 ∧ f.toNat / 8 ≤ f.toNat % 8 := by
  revert f
  decide

/-- A well-formed instruction is read back from its own C, F and address part. -/
theorem decodeOp_encodeParts (hw : i.wf p = true) :
    decodeOp p (encodeParts i).1 (encodeParts i).2.1 (encodeParts i).2.2 = some i := by
  cases i with
  | nop a g | add a g | sub a g | mul a g | div a g
  | lda a g | ld1 a g | ld2 a g | ld3 a g | ld4 a g | ld5 a g | ld6 a g | ldx a g
  | ldan a g | ld1n a g | ld2n a g | ld3n a g | ld4n a g | ld5n a g | ld6n a g | ldxn a g
  | sta a g | st1 a g | st2 a g | st3 a g | st4 a g | st5 a g | st6 a g | stx a g | stj a g | stz a g
  | cmpa a g | cmp1 a g | cmp2 a g | cmp3 a g | cmp4 a g | cmp5 a g | cmp6 a g | cmpx a g =>
    exact withField_fieldByte hw
  | jbus a u | ioc a u | inp a u | out a u | jred a u => exact if_pos hw
  | _ => rfl

/-- What F and the address part `a` read as under opcode C: an instruction only where it is well formed and these
are its parts, and an instruction exactly where F is legal. -/
structure Reads (p : Params) (c f : BitVec 6) (a : Address) (o : Option Instr) : Prop where
  parts : ∀ i, o = some i → encodeParts i = (c, f, a) ∧ i.wf p = true
  legal : o.isSome = true ↔ legalF p c.toNat f.toNat

theorem reads_withField {mk : Field → Instr} (hparts : ∀ g, encodeParts (mk g) = (c, fieldByte g, a))
    (hwf : ∀ g, (mk g).wf p = g.valid)
    (hlegal : legalF p c.toNat f.toNat ↔ f.toNat % 8 ≤ 5 ∧ f.toNat / 8 ≤ f.toNat % 8) :
    Reads p c f a (withField f mk) where
  parts i hi := by
    obtain ⟨hv, rfl⟩ := withField_eq_some.mp hi
    rw [hparts, hwf, fieldByte_fieldOf]
    exact ⟨rfl, hv⟩
  legal := by
    rw [hlegal, ← fieldOf_valid_iff, Option.isSome_iff_exists]
    simp [withField_eq_some]

theorem reads_withUnit {mk : BitVec 6 → Instr} (hparts : ∀ u, encodeParts (mk u) = (c, u, a))
    (hwf : ∀ u, (mk u).wf p = p.ioUnits.contains u)
    (hlegal : legalF p c.toNat f.toNat ↔ BitVec.ofNat 6 f.toNat ∈ p.ioUnits) :
    Reads p c f a (withUnit p f mk) where
  parts i hi := by
    obtain ⟨hu, rfl⟩ := withUnit_eq_some.mp hi
    rw [hparts, hwf]
    exact ⟨rfl, hu⟩
  legal := by
    rw [hlegal, BitVec.ofNat_toNat, BitVec.setWidth_eq, Option.isSome_iff_exists]
    simp [withUnit_eq_some]

theorem reads_instr (hparts : encodeParts i = (c, f, a)) (hwf : i.wf p = true)
    (hlegal : legalF p c.toNat f.toNat) : Reads p c f a (some i) where
  parts _ hi := Option.some.inj hi ▸ ⟨hparts, hwf⟩
  legal := iff_of_true rfl hlegal

theorem reads_none (hlegal : ¬ legalF p c.toNat f.toNat) : Reads p c f a none where
  parts := nofun
  legal := iff_of_false nofun hlegal

/-- The opcode map of R150, one line per F role: a field, a unit, a count, or a selector below its bound. -/
theorem decodeOp_reads (p : Params) (c f : BitVec 6) (a : Address) : Reads p c f a (decodeOp p c f a) := by
  obtain ⟨⟨n, hn⟩⟩ := c
  match n, hn with
  | 0, _ | 1, _ | 2, _ | 3, _ | 4, _ | 8, _ | 9, _ | 10, _ | 11, _ | 12, _ | 13, _ | 14, _ | 15, _ | 16, _ | 17, _
  | 18, _ | 19, _ | 20, _ | 21, _ | 22, _ | 23, _ | 24, _ | 25, _ | 26, _ | 27, _ | 28, _ | 29, _ | 30, _ | 31, _
  | 32, _ | 33, _ | 56, _ | 57, _ | 58, _ | 59, _ | 60, _ | 61, _ | 62, _ | 63, _ =>
    exact reads_withField (fun _ => rfl) (fun _ => rfl) Iff.rfl
  | 34, _ | 35, _ | 36, _ | 37, _ | 38, _ => exact reads_withUnit (fun _ => rfl) (fun _ => rfl) Iff.rfl
  | 7, _ => exact reads_instr rfl rfl trivial
  | 5, _ =>
    obtain ⟨⟨m, hm⟩⟩ := f
    match m, hm with
    | 0, _ | 1, _ | 2, _ => exact reads_instr rfl rfl (of_decide_eq_true rfl)
    | m + 3, _ => exact reads_none (Nat.not_le_of_lt (by omega : 2 < m + 3))
  | 6, _ | 40, _ | 41, _ | 42, _ | 43, _ | 44, _ | 45, _ | 46, _ | 47, _ =>
    obtain ⟨⟨m, hm⟩⟩ := f
    match m, hm with
    | 0, _ | 1, _ | 2, _ | 3, _ | 4, _ | 5, _ => exact reads_instr rfl rfl (of_decide_eq_true rfl)
    | m + 6, _ => exact reads_none (Nat.not_le_of_lt (by omega : 5 < m + 6))
  | 39, _ =>
    obtain ⟨⟨m, hm⟩⟩ := f
    match m, hm with
    | 0, _ | 1, _ | 2, _ | 3, _ | 4, _ | 5, _ | 6, _ | 7, _ | 8, _ | 9, _ =>
      exact reads_instr rfl rfl (of_decide_eq_true rfl)
    | m + 10, _ => exact reads_none (Nat.not_le_of_lt (by omega : 9 < m + 10))
  | 48, _ | 49, _ | 50, _ | 51, _ | 52, _ | 53, _ | 54, _ | 55, _ =>
    obtain ⟨⟨m, hm⟩⟩ := f
    match m, hm with
    | 0, _ | 1, _ | 2, _ | 3, _ => exact reads_instr rfl rfl (of_decide_eq_true rfl)
    | m + 4, _ => exact reads_none (Nat.not_le_of_lt (by omega : 3 < m + 4))
  | n + 64, hn => exact absurd hn (by omega)

end OpcodeMap

/-! ## The decoder -/

/-- I is no index exactly above 6 (R134, R141). -/
theorem decodeIndex_eq_none_iff (k : BitVec 6) : decodeIndex k = none ↔ 6 < k.toNat := by
  revert k
  decide

theorem exists_decodeIndex {k : BitVec 6} (hk : k.toNat ≤ 6) : ∃ idx, decodeIndex k = some idx := by
  rw [← Option.ne_none_iff_exists', Ne, decodeIndex_eq_none_iff]
  omega

/-- R146: the operations the source does not describe, in arithmetic on C. -/
theorem gkOpcode_iff (c : BitVec 6) : gkOpcode c = true ↔ gkOperation c.toNat := by
  revert c
  decide

/-- R130: C, F and I read off the magnitude of a word. -/
theorem unpackInstr_toNat {w : Word} {x : Cell} (hx : unpackInstr w = x) :
    x.c.toNat = w.mag.toNat % 64 ∧ x.f.toNat = w.mag.toNat / 64 % 64 ∧ x.i.toNat = w.mag.toNat / 64 ^ 2 % 64 := by
  subst hx
  refine ⟨?_, ?_, ?_⟩ <;> simp only [unpackInstr, extractLsb_toNat] <;> omega

section Decoder

variable {p : Params} {w : Word} {c f k : BitVec 6} {am : BitVec 12} {as : Sign}
  (hx : unpackInstr w = ⟨c, f, k, am, as⟩)

include hx

/-- Outcome 1 of R160: a bad index or an opcode the build has not. -/
theorem decode_of_illegal (h : 6 < k.toNat ∨ p.maxOpcode.toNat < c.toNat) : decode p w = .illegalInstruction := by
  simp only [decode, hx]
  rcases h with hk | hc
  · rw [(decodeIndex_eq_none_iff k).mpr hk]
  · split
    · rfl
    · exact if_pos hc

section Legal

variable (hc : c.toNat ≤ p.maxOpcode.toNat)

include hc

/-- Where the opcode map reads nothing, F is at fault. -/
theorem decode_of_decodeOp_none {idx : Option IndexReg} (hk : decodeIndex k = some idx)
    (hop : decodeOp p c f ⟨as, am, idx⟩ = none) : decode p w = .fieldError f := by
  simp [decode, hx, hk, hop, Nat.not_lt.mpr hc]

/-- Where the opcode map reads an instruction, the admission of the operation decides (R146). -/
theorem decode_of_decodeOp {idx : Option IndexReg} {i : Instr} (hk : decodeIndex k = some idx)
    (hop : decodeOp p c f ⟨as, am, idx⟩ = some i) :
    decode p w = if p.gkOpsAdmitted = false ∧ gkOpcode c = true then .refused c f else .instr i := by
  simp [decode, hx, hk, hop, Nat.not_lt.mpr hc]

variable (hk : k.toNat ≤ 6)

include hk

/-- Outcome 2 of R160: an F that is not legal for the opcode. -/
theorem decode_of_not_legalF (hf : ¬ legalF p c.toNat f.toNat) : decode p w = .fieldError f := by
  obtain ⟨idx, hidx⟩ := exists_decodeIndex hk
  exact decode_of_decodeOp_none hx hc hidx (Option.not_isSome_iff_eq_none.mp (mt (decodeOp_reads ..).legal.mp hf))

/-- Outcomes 3 and 4 of R160: an operation that is not admitted is refused, any other is an instruction. -/
theorem decode_of_legalF (hf : legalF p c.toNat f.toNat) : ∃ i,
    decode p w = if p.gkOpsAdmitted = false ∧ gkOperation c.toNat then .refused c f else .instr i := by
  obtain ⟨idx, hidx⟩ := exists_decodeIndex hk
  obtain ⟨i, hop⟩ := Option.isSome_iff_exists.mp ((decodeOp_reads p c f ⟨as, am, idx⟩).legal.mpr hf)
  refine ⟨i, ?_⟩
  simp only [decode_of_decodeOp hx hc hidx hop, gkOpcode_iff]

end Legal

/-- A word decodes to an instruction only by the opcode map. -/
theorem decodeOp_of_decode {i : Instr} (h : decode p w = .instr i) :
    ∃ idx, decodeIndex k = some idx ∧ decodeOp p c f ⟨as, am, idx⟩ = some i := by
  by_cases hbad : 6 < k.toNat ∨ p.maxOpcode.toNat < c.toNat
  · rw [decode_of_illegal hx hbad] at h
    cases h
  · obtain ⟨hk, hc⟩ : k.toNat ≤ 6 ∧ c.toNat ≤ p.maxOpcode.toNat := by simpa using hbad
    obtain ⟨idx, hidx⟩ := exists_decodeIndex hk
    cases hop : decodeOp p c f ⟨as, am, idx⟩ with
    | none =>
      rw [decode_of_decodeOp_none hx hc hidx hop] at h
      cases h
    | some j =>
      rw [decode_of_decodeOp hx hc hidx hop] at h
      split at h <;> cases h
      exact ⟨idx, hidx, hop⟩

end Decoder

/-! ## What a step does on a FieldError (R502) -/

section FieldErrorPolicy

variable {s : State} {f : BitVec 6}

theorem fieldError_of_skip (h : s.params.fieldError = .skip) :
    fieldError f s = complete (s.record (.fieldError f)) := by
  simp [fieldError, h]

theorem fieldError_of_stop (h : s.params.fieldError = .stop) : fieldError f s = raise (.fieldError f) s := by
  simp [fieldError, h]

end FieldErrorPolicy

/-! ## The effective address -/

theorem effective_of_none {a : Address} {s : State} (h : a.index = none) :
    effective a s = a.sign.apply a.mag.toNat := by
  simp [effective, h, addressVal]

theorem effective_of_some {a : Address} {s : State} {k : IndexReg} (h : a.index = some k) :
    effective a s = a.sign.apply a.mag.toNat + (s.index k).sign.apply (s.index k).mag.toNat := by
  simp [effective, h, addressVal, IndexWord.val]

/-- The value of a sign and a magnitude, by the sign. -/
theorem sign_apply (s : Sign) (n : Nat) : s.apply n = if s = .minus then -(n : Int) else n := by
  cases s <;> rfl

/-- R142: a sign and two bytes lie in −4095..4095. -/
theorem sign_apply_bounds (s : Sign) (m : BitVec 12) : -4095 ≤ s.apply m.toNat ∧ s.apply m.toNat ≤ 4095 := by
  have := m.isLt
  cases s <;> simp only [Sign.apply] <;> omega

/-! ## The statements -/

/-- Settles O2: the cell of the word is the cell of the instruction, and the opcode map reads it back. -/
theorem decodeOfEncodeIsTheInstruction : Obligations.DecodeOfEncodeIsTheInstruction := by
  intro p i hw hc hgk
  have hcell : unpackInstr (encode i) = cellOf (encodeParts i) := unpackInstr_packInstr _
  rw [decode_of_decodeOp hcell hc (decodeIndex_encodeIndex _) (decodeOp_encodeParts hw), if_neg]
  rintro ⟨hadm, hop⟩
  simp [hadm, hop] at hgk

/-- Settles O3: the parts of the instruction are those of the word's cell, so its word is the cell packed again. -/
theorem encodeOfDecodeIsTheWord : Obligations.EncodeOfDecodeIsTheWord := by
  intro p w i h
  obtain ⟨idx, hidx, hop⟩ := decodeOp_of_decode rfl h
  obtain ⟨hparts, hwf⟩ := (decodeOp_reads ..).parts i hop
  refine ⟨?_, hwf⟩
  rw [encode, hparts, cellOf, encodeIndex_of_decodeIndex hidx]
  exact packInstr_unpackInstr w

/-- Settles O5: `decode` gives the outcome that applies, and a step does what that outcome says. -/
theorem stepFollowsTheDecodeOutcome : Obligations.StepFollowsTheDecodeOutcome := by
  intro s hr hin w c f i p
  have hstep : step s = runWord w s := by
    rw [step_of_running hr, cycle_of_inside ((State.inMemory_iff s _).mpr hin)]
  rcases hx : unpackInstr w with ⟨C, F, I, am, as⟩
  obtain ⟨hC, hF, hI⟩ : C.toNat = c ∧ F.toNat = f ∧ I.toNat = i := unpackInstr_toNat hx
  clear_value c f i
  subst hC hF hI
  simp only [BitVec.ofNat_toNat, BitVec.setWidth_eq, hstep, runWord, not_or, not_lt]
  refine ⟨fun hbad => ?_, fun ⟨hi, hc⟩ hf hskip => ?_, fun ⟨hi, hc⟩ hf hstop => ?_,
    fun ⟨hi, hc⟩ hf hadm hgk => ?_, fun ⟨hi, hc⟩ hf hgk => ?_⟩
  · rw [decode_of_illegal hx hbad]
    rfl
  · rw [decode_of_not_legalF hx hc hi hf]
    exact fieldError_of_skip hskip
  · rw [decode_of_not_legalF hx hc hi hf]
    exact fieldError_of_stop hstop
  · obtain ⟨x, hd⟩ := decode_of_legalF hx hc hi hf
    rw [hd, if_pos ⟨hadm, hgk⟩]
    rfl
  · obtain ⟨x, hd⟩ := decode_of_legalF hx hc hi hf
    rw [hd, if_neg hgk]
    exact ⟨x, rfl, rfl⟩

/-- Settles O9: the two cases of the index, each a sum of at most two signed pairs of bytes. -/
theorem effectiveAddressIsTheIndexedSum : Obligations.EffectiveAddressIsTheIndexedSum := by
  intro a s
  have hA := sign_apply_bounds a.sign a.mag
  refine ⟨fun hidx => ?_, fun k hidx => ?_, rfl, ?_⟩
  · rw [effective_of_none hidx, sign_apply]
  · rw [effective_of_some hidx, sign_apply, sign_apply]
  · cases hidx : a.index with
    | none =>
      rw [effective_of_none hidx]
      omega
    | some k =>
      have hI := sign_apply_bounds (s.index k).sign (s.index k).mag
      rw [effective_of_some hidx]
      omega

/-- Settles O4: each word is decoded. -/
theorem specWordsDecode : Obligations.SpecWordsDecode := by
  unfold Obligations.SpecWordsDecode
  decide

end Sys2Proof.EncodingProofs

/-! # Proofs of the statements about the loads

A load whose M is in memory goes on with the field of the word at M, in the arithmetic of the statements
(`load_plain_of_inside`, `load_negative_of_inside`). LDi and LDiN then end in one write of an index register
(`exec_ldIndex`, `exec_ldIndexN`), and what such a write does is said once for every instruction that ends in one
(`indexWrite_of_exec`). -/

namespace Sys2Proof.LoadProofs

open Sys2Proof.Machine Sys2Proof.Claims Sys2Proof.MemoryProofs

/-! ## The operand in arithmetic -/

section Operand

variable {f : Field}

/-- R103: a field's magnitude fits its bytes. -/
theorem fieldMag_lt (w : Word) (f : Field) : fieldMag w f < 64 ^ byteCount f :=
  Nat.mod_lt _ (Nat.pow_pos (by decide))

theorem fieldMag_lt_of_byteCount_le {n : Nat} (w : Word) (h : byteCount f ≤ n) : fieldMag w f < 64 ^ n :=
  Nat.lt_of_lt_of_le (fieldMag_lt w f) (Nat.pow_le_pow_right (by decide) h)

theorem fieldWord_mag_toNat (w : Word) (h : f.valid = true) : (fieldWord w f).mag.toNat = fieldMag w f :=
  Nat.mod_eq_of_lt (fieldMag_lt_of_byteCount_le w (byteCount_le h))

/-- The field engine's extract is the field word of the statements. -/
theorem extractField_eq_fieldWord (w : Word) (h : f.valid = true) : extractField w f = fieldWord w f := by
  have hsign : (extractField w f).sign = (fieldWord w f).sign := extractField_sign w f
  have hmag : (extractField w f).mag = (fieldWord w f).mag := by
    apply BitVec.eq_of_toNat_eq
    rw [fieldWord_mag_toNat w h]
    exact extract_toNat w h
  exact (Word.mk.injEq ..).mpr ⟨hsign, hmag⟩

theorem fieldWord_val (w : Word) (h : f.valid = true) : (fieldWord w f).val = fieldVal w f := by
  rw [Word.val, fieldWord_mag_toNat w h]
  rfl

theorem sign_opposite_apply (g : Sign) (n : Nat) : g.opposite.apply n = -g.apply n := by
  cases g
  · rfl
  · exact (Int.neg_neg _).symm

theorem negate_val (w : Word) : w.negate.val = -w.val := sign_opposite_apply w.sign w.mag.toNat

theorem sign_apply_natAbs (g : Sign) (n : Nat) : (g.apply n).natAbs = n := by
  cases g
  · exact Int.natAbs_natCast n
  · exact (Int.natAbs_neg _).trans (Int.natAbs_natCast n)

theorem fieldVal_natAbs (w : Word) (f : Field) : (fieldVal w f).natAbs = fieldMag w f :=
  sign_apply_natAbs _ _

end Operand

/-! ## Writes of an index register -/

/-- R57: an instruction that ends in a write of rIk does what the statements say of one. -/
theorem indexWrite_of_exec {i : Instr} {s : State} {k : IndexReg} {sg : Sign} {v : Int}
    (h : exec i s = writeIndex k sg v s s) : IndexWrite k sg v s i := by
  refine ⟨fun hv => ?_, fun hv hrecord => ?_, fun hv hstop => ?_⟩
  · rw [h, writeIndex, if_pos hv]
    simp [complete, State.setPc]
  · have hlow : BitVec.ofNat 12 (v.natAbs % 4096) = BitVec.ofNat 12 v.natAbs := by
      apply BitVec.eq_of_toNat_eq
      simp
    rw [h, writeIndex, if_neg (Nat.not_lt.mpr hv), hrecord, hlow]
    simp [complete, State.setPc, State.record]
  · rw [h, writeIndex, if_neg (Nat.not_lt.mpr hv), hstop]
    rfl

/-! ## Loads with M in memory -/

section Loads

variable {a : Address} {f : Field} {s : State} (hf : f.valid = true) (hin : Inside s (effective a s))

include hf hin

/-- R200: a load goes on with the field of the word at M. -/
theorem load_plain_of_inside (k : Word → Answer) :
    load false a f s k = k (fieldWord (s.word (effective a s)) f) := by
  rw [load, withOperand_of_inside ((State.inMemory_iff s _).mpr hin)]
  exact congrArg k (extractField_eq_fieldWord _ hf)

/-- R201: a negative load goes on with that field, its sign inverted. -/
theorem load_negative_of_inside (k : Word → Answer) :
    load true a f s k = k (fieldWord (s.word (effective a s)) f).negate := by
  rw [load, withOperand_of_inside ((State.inMemory_iff s _).mpr hin)]
  exact congrArg (k ·.negate) (extractField_eq_fieldWord _ hf)

theorem exec_ldIndex (k : IndexReg) :
    exec (ldIndex k a f) s =
      writeIndex k (fieldSign (s.word (effective a s)) f) (fieldVal (s.word (effective a s)) f) s s := by
  have hexec : exec (ldIndex k a f) s = loadIndex k false a f s := by cases k <;> rfl
  rw [hexec, loadIndex, load_plain_of_inside hf hin, fieldWord_val _ hf]
  rfl

theorem exec_ldIndexN (k : IndexReg) :
    exec (ldIndexN k a f) s =
      writeIndex k (fieldSign (s.word (effective a s)) f).opposite (-fieldVal (s.word (effective a s)) f) s s := by
  have hexec : exec (ldIndexN k a f) s = loadIndex k true a f s := by cases k <;> rfl
  rw [hexec, loadIndex, load_negative_of_inside hf hin, negate_val, fieldWord_val _ hf]
  rfl

end Loads

/-! ## The statements -/

/-- Settles O14: each of the four is `load` with the write of its register. -/
theorem loadsOfAAndXComplete : Obligations.LoadsOfAAndXComplete := by
  intro a f s hf hin w
  exact ⟨load_plain_of_inside hf hin fun v => complete (s.setRA v),
    load_plain_of_inside hf hin fun v => complete (s.setRX v),
    load_negative_of_inside hf hin fun v => complete (s.setRA v),
    load_negative_of_inside hf hin fun v => complete (s.setRX v)⟩

/-- Settles O16: LDi and LDiN end in a write of rIi, and two bytes make a magnitude below 64². -/
theorem indexLoadsOfWideValuesAreAnomalies : Obligations.IndexLoadsOfWideValuesAreAnomalies := by
  intro k a f s hf hin w
  exact ⟨indexWrite_of_exec (exec_ldIndex hf hin k), indexWrite_of_exec (exec_ldIndexN hf hin k),
    fieldMag_lt_of_byteCount_le w⟩

/-- Settles O15: the first of the three cases of O16, where the magnitude is below 4096. -/
theorem loadsOfIndexRegistersComplete : Obligations.LoadsOfIndexRegistersComplete := by
  intro k a f s hf hin w hmag
  obtain ⟨⟨hplain, -, -⟩, ⟨hneg, -, -⟩, -⟩ := indexLoadsOfWideValuesAreAnomalies k a f s hf hin
  rw [Int.natAbs_neg] at hneg
  rw [fieldVal_natAbs] at hplain hneg
  exact ⟨hplain hmag, hneg hmag⟩

end Sys2Proof.LoadProofs

/-! # Proofs of the statement about the stores

The ten stores are one operation, `store`, with the source word of their row (`exec_of_mem_storeTable`); where M is in
memory it completes with one word of memory written (`store_of_inside`). -/

namespace Sys2Proof.StoreProofs

open Sys2Proof.Machine Sys2Proof.Claims Sys2Proof.MemoryProofs

/-- R14: an index register as a word, in the statements and in the model. -/
theorem indexWord_eq_word (r : IndexWord) : indexWord r = r.word := by
  rw [indexWord, IndexWord.word, BitVec.ofNat_toNat]

/-- R240: rJ as a word, in the statements and in the model. -/
theorem plus_ofNat_eq_jumpWord (j : BitVec 12) : (⟨.plus, BitVec.ofNat 30 j.toNat⟩ : Word) = jumpWord j := by
  rw [jumpWord, BitVec.ofNat_toNat]

/-- R231: each row of the table runs `store` on its source word. -/
theorem exec_of_mem_storeTable {s : State} {x : (Address → Field → Instr) × Word} (hx : x ∈ storeTable s)
    (a : Address) (f : Field) : exec (x.1 a f) s = store x.2 a f s := by
  simp only [storeTable, indexWord_eq_word, plus_ofNat_eq_jumpWord, List.mem_cons, List.not_mem_nil, or_false] at hx
  rcases hx with rfl | rfl | rfl | rfl | rfl | rfl | rfl | rfl | rfl | rfl
  all_goals rfl

/-- R230: a store whose M is in memory completes with the insert written at M. -/
theorem store_of_inside {a : Address} {s : State} (hin : Inside s (effective a s)) (src : Word) (f : Field) :
    store src a f s =
      complete (s.setMem (s.mem.write (effective a s).toNat (insertField (s.word (effective a s)) f src))) := by
  rw [store, withOperand_of_inside ((State.inMemory_iff s _).mpr hin)]

/-- Settles O18: the next state is that of `store`, and its memory reads as one word written (R110). -/
theorem storesInsertTheFieldAtM : Obligations.StoresInsertTheFieldAtM := by
  intro a f s _ hwf hin x hx
  refine ⟨_, (exec_of_mem_storeTable hx a f).trans (store_of_inside hin x.2 f), ?_, fun b hb => ?_, rfl⟩
  · exact (read_write hwf _ _ _).trans (if_pos rfl)
  · exact read_write_ne hwf hb

end Sys2Proof.StoreProofs

/-! # Proofs of the statements about the arithmetic

ADD, SUB, MUL and DIV go on with the field word of the statements (`withV_of_inside`) and complete with what the alu's
law gives.  Each law is put into the arithmetic of the statements once (`addLaw_eq`, `mulLaw_mag`, `divLaw_of_lt`,
`divLaw_of_overflow`); the value laws then follow from the next states. -/

namespace Sys2Proof.ArithmeticProofs

open Sys2Proof.Machine Sys2Proof.Claims Sys2Proof.LoadProofs

/-! ## The laws of the alu -/

/-- R11: five bytes hold a word's magnitude. -/
theorem val_natAbs_lt (w : Word) : w.val.natAbs < 64 ^ 5 := by
  rw [Word.val, sign_apply_natAbs]
  exact w.mag.isLt

/-- R103: a field's value fits five bytes, the field being at most a word. -/
theorem fieldVal_natAbs_lt (w : Word) {f : Field} (hf : f.valid = true) : (fieldVal w f).natAbs < 64 ^ 5 := by
  rw [← fieldWord_val w hf]
  exact val_natAbs_lt _

/-- R250: a sum of two five-byte values is below 2·64^5, so taking 64^5 off one that overflows is taking it
mod 64^5. -/
theorem addLaw_eq (r : Word) {v : Int} (hv : v.natAbs < 64 ^ 5) :
    addLaw r v = (sumWord r (r.val + v), decide (64 ^ 5 ≤ (r.val + v).natAbs)) := by
  have hsum : (r.val + v).natAbs < 2 * 64 ^ 5 := by
    have := Int.natAbs_add_le r.val v
    have := val_natAbs_lt r
    omega
  rw [addLaw, sumWord]
  generalize r.val + v = t at hsum
  by_cases hzero : t = 0
  · subst hzero
    rfl
  have hsign : sgn t .plus = if 0 < t then .plus else .minus := by
    rcases Int.lt_or_gt_of_ne hzero with hneg | hpos
    · rw [sgn, if_neg (Int.lt_asymm hneg), if_pos hneg, if_neg (Int.lt_asymm hneg)]
    · rw [sgn, if_pos hpos, if_pos hpos]
  by_cases hover : 64 ^ 5 ≤ t.natAbs
  · have hcut : t.natAbs % 64 ^ 5 = t.natAbs - 64 ^ 5 := by omega
    rw [if_neg hzero, if_neg hzero, if_pos hover, hsign, hcut, decide_eq_true hover]
  · have hkeep : t.natAbs % 64 ^ 5 = t.natAbs := Nat.mod_eq_of_lt (Nat.lt_of_not_le hover)
    rw [if_neg hzero, if_neg hzero, if_neg hover, hsign, hkeep, decide_eq_false hover]

/-- R261: a sum that fits five bytes is the new value. -/
theorem sumWord_val (r : Word) {t : Int} (ht : t.natAbs < 64 ^ 5) : (sumWord r t).val = t := by
  have hmag : (BitVec.ofNat 30 (t.natAbs % 64 ^ 5)).toNat = t.natAbs := by
    rw [Nat.mod_eq_of_lt ht]
    exact Nat.mod_eq_of_lt ht
  rw [sumWord]
  split
  · next hzero =>
    subst hzero
    cases r.sign <;> rfl
  · rw [Word.val, hmag]
    split
    · next hpos => exact Int.natAbs_of_nonneg (Int.le_of_lt hpos)
    · next hnonpos =>
      have habs : (t.natAbs : Int) = -t := Int.ofNat_natAbs_of_nonpos (Int.not_lt.mp hnonpos)
      rw [Sign.apply, habs, Int.neg_neg]

/-- R252: rA:rX holds the product of the magnitudes. -/
theorem mulLaw_mag (a v : Word) :
    (mulLaw a v).1.mag.toNat * 64 ^ 5 + (mulLaw a v).2.mag.toNat = a.mag.toNat * v.mag.toNat := by
  have hhigh : a.mag.toNat * v.mag.toNat / 64 ^ 5 < 64 ^ 5 :=
    Nat.div_lt_of_lt_mul (Nat.mul_lt_mul'' a.mag.isLt v.mag.isLt)
  have hlow : a.mag.toNat * v.mag.toNat % 64 ^ 5 < 64 ^ 5 := Nat.mod_lt _ (by decide)
  have h1 : (mulLaw a v).1.mag.toNat = a.mag.toNat * v.mag.toNat / 64 ^ 5 := Nat.mod_eq_of_lt hhigh
  have h2 : (mulLaw a v).2.mag.toNat = a.mag.toNat * v.mag.toNat % 64 ^ 5 := Nat.mod_eq_of_lt hlow
  rw [h1, h2]
  exact Nat.div_add_mod' _ _

/-- R253: where |a| < |v| the division has a quotient of five bytes and its remainder. -/
theorem divLaw_of_lt (a x v : Word) (h : a.mag.toNat < v.mag.toNat) :
    ∃ q r : BitVec 30, divLaw a x v = some (⟨productSign a.sign v.sign, q⟩, ⟨a.sign, r⟩) ∧
      q.toNat * v.mag.toNat + r.toNat = a.mag.toNat * 64 ^ 5 + x.mag.toNat ∧ r.toNat < v.mag.toNat := by
  have hq : (a.mag.toNat * 64 ^ 5 + x.mag.toNat) / v.mag.toNat < 2 ^ 30 := by
    have hx := x.mag.isLt
    apply Nat.div_lt_of_lt_mul
    omega
  have hr : (a.mag.toNat * 64 ^ 5 + x.mag.toNat) % v.mag.toNat < v.mag.toNat := Nat.mod_lt _ (by omega)
  have hr30 := Nat.lt_trans hr v.mag.isLt
  refine ⟨_, _, if_neg (by omega), ?_, ?_⟩
  · rw [BitVec.toNat_ofNat, BitVec.toNat_ofNat, Nat.mod_eq_of_lt hq, Nat.mod_eq_of_lt hr30]
    exact Nat.div_add_mod' _ _
  · rwa [BitVec.toNat_ofNat, Nat.mod_eq_of_lt hr30]

/-- R253: the division law overflows where V is 0 or the quotient needs more than five bytes. -/
theorem divLaw_of_overflow (a x v : Word) (h : v.mag.toNat = 0 ∨ v.mag.toNat ≤ a.mag.toNat) :
    divLaw a x v = none :=
  if_pos h

/-! ## The instructions with M in memory -/

section Instructions

variable {a : Address} {f : Field} {s : State}

/-- R250, R255: an addition to rA completes with the sum law of the statements. -/
theorem complete_addToA {v : Int} (hv : v.natAbs < 64 ^ 5) :
    complete (addToA v s) =
      .next { s with rA := sumWord s.rA (s.rA.val + v), ov := sumOv s (s.rA.val + v), pc := s.pc + 1 } := by
  rw [addToA, addLaw_eq s.rA hv]
  rfl

variable (hf : f.valid = true) (hin : Inside s (effective a s))

include hf hin

/-- R254: the operand is the field of the word at M. -/
theorem withV_of_inside (k : Word → Answer) : withV a f s k = k (fieldWord (s.word (effective a s)) f) := by
  rw [withV, withOperand_of_inside ((State.inMemory_iff s _).mpr hin), extractField_eq_fieldWord _ hf]

/-- R256: ADD adds the value of the field. -/
theorem exec_add_of_inside :
    exec (.add a f) s = complete (addToA (fieldVal (s.word (effective a s)) f) s) := by
  rw [← fieldWord_val _ hf]
  exact withV_of_inside hf hin fun v => complete (addToA v.val s)

/-- R257: SUB adds the opposite value. -/
theorem exec_sub_of_inside :
    exec (.sub a f) s = complete (addToA (-fieldVal (s.word (effective a s)) f) s) := by
  rw [← fieldWord_val _ hf]
  exact withV_of_inside hf hin fun v => complete (addToA (-v.val) s)

/-- R258: MUL writes the two words of the product law. -/
theorem exec_mul_of_inside :
    exec (.mul a f) s = complete ((s.setRA (mulLaw s.rA (fieldWord (s.word (effective a s)) f)).1).setRX
      (mulLaw s.rA (fieldWord (s.word (effective a s)) f)).2) :=
  withV_of_inside hf hin fun v => complete ((s.setRA (mulLaw s.rA v).1).setRX (mulLaw s.rA v).2)

/-- R259: DIV without overflow. -/
theorem exec_div_of_some {q r : Word}
    (h : divLaw s.rA s.rX (fieldWord (s.word (effective a s)) f) = some (q, r)) :
    exec (.div a f) s = complete ((s.setRA q).setRX r) := by
  change execDiv a f s = _
  rw [execDiv, withV_of_inside hf hin, h]

/-- R259: DIV with overflow. -/
theorem exec_div_of_none (h : divLaw s.rA s.rX (fieldWord (s.word (effective a s)) f) = none) :
    exec (.div a f) s = complete (divOverflow s) := by
  change execDiv a f s = _
  rw [execDiv, withV_of_inside hf hin, h]

end Instructions

/-! ## The statements -/

/-- Settles O19: both instructions add a value of five bytes to rA, SUB the opposite of the field's. -/
theorem addAndSubtractComplete : Obligations.AddAndSubtractComplete := by
  intro a f s hf hin v
  have hv : v.natAbs < 64 ^ 5 := fieldVal_natAbs_lt _ hf
  have hneg : (-v).natAbs < 64 ^ 5 := (Int.natAbs_neg v).symm ▸ hv
  exact ⟨(exec_add_of_inside hf hin).trans (complete_addToA hv),
    (exec_sub_of_inside hf hin).trans (complete_addToA hneg)⟩

/-- Settles O20: rA and rX are the two words of the product law, which have its sign. -/
theorem multiplyCompletes : Obligations.MultiplyCompletes := by
  intro a f s hf hin w
  refine ⟨_, exec_mul_of_inside hf hin, ?_, rfl, rfl, rfl⟩
  rw [← fieldWord_mag_toNat w hf]
  exact mulLaw_mag s.rA (fieldWord w f)

/-- Settles O21: where rA's magnitude is below the field's, the division law has a quotient. -/
theorem divideCompletes : Obligations.DivideCompletes := by
  intro a f s hf hin w hlt
  rw [← fieldWord_mag_toNat w hf] at hlt ⊢
  obtain ⟨q, r, hlaw, hquotient, hremainder⟩ := divLaw_of_lt s.rA s.rX (fieldWord w f) hlt
  exact ⟨_, exec_div_of_some hf hin hlaw, hquotient, hremainder, rfl, rfl, rfl⟩

/-- Settles O22: the hypothesis is the division law's overflow, and the next state `divOverflow`'s. -/
theorem divideOverflowSetsOV : Obligations.DivideOverflowSetsOV := by
  intro a f s hf hin w hover
  rw [← fieldWord_mag_toNat w hf] at hover
  exact ⟨_, exec_div_of_none hf hin (divLaw_of_overflow _ _ _ hover), rfl⟩

/-- Settles O23: the laws hold of the next states that O19, O20 and O21 give. -/
theorem arithmeticValueLaws : Obligations.ArithmeticValueLaws := by
  intro a f s t hf hin w
  obtain ⟨hadd, hsub⟩ := addAndSubtractComplete a f s hf hin
  refine ⟨fun h hfits => ?_, fun h hfits => ?_, fun h => ?_, fun h hlt => ?_⟩
  · cases hadd.symm.trans h
    exact sumWord_val s.rA hfits
  · cases hsub.symm.trans h
    exact sumWord_val s.rA hfits
  · obtain ⟨u, hu, hproduct, -⟩ := multiplyCompletes a f s hf hin
    cases hu.symm.trans h
    exact hproduct
  · obtain ⟨u, hu, hquotient, hremainder, -⟩ := divideCompletes a f s hf hin hlt
    cases hu.symm.trans h
    exact ⟨hquotient.symm, hremainder⟩

end Sys2Proof.ArithmeticProofs

/-! # Proofs of the statements about the shifts

The bytes of rA, and the ten bytes of rA:rX, are lists numbered from 1 (`numbered`).  What a shift or a rotation does
to a byte (R280), and which bytes a left shift moves out (R282), is said once for such lists; `shiftA` and `shiftAX`
put the shifted list back into the registers. -/

namespace Sys2Proof.ShiftProofs

open Sys2Proof.Machine Sys2Proof.Claims

/-! ## Lists of bytes numbered from 1 -/

section Numbered

/-- Bytes 1 to `m`, byte `i` being `f i`. -/
def numbered (f : Nat → Byte) (m : Nat) : List Byte := (List.range' 1 m).map f

theorem wordBytes_eq_numbered (w : Word) : wordBytes w = numbered (wordByte w) 5 := rfl

theorem bytesAX_eq_numbered (s : State) : bytesAX s = numbered (byteAX s) 10 := rfl

variable (f : Nat → Byte) {m : Nat}

@[simp] theorem numbered_length : (numbered f m).length = m := by simp [numbered]

theorem numbered_getD {j : Nat} (hj : j < m) : (numbered f m).getD j 0 = f (j + 1) := by
  simp [numbered, hj, Nat.add_comm]

/-- R280: byte i of shl. -/
theorem shl_numbered (n : Nat) {i : Nat} (h1 : 1 ≤ i) :
    (shl (numbered f m) n).getD (i - 1) 0 = if i + n ≤ m then f (i + n) else 0 := by
  rw [shl_getD, numbered_length]
  split
  · rw [numbered_getD f ‹_›, if_pos (by omega), show i - 1 + n + 1 = i + n by omega]
  · rw [if_neg (by omega)]

/-- R280: byte i of shr. -/
theorem shr_numbered (n : Nat) {i : Nat} (h1 : 1 ≤ i) (hm : i ≤ m) :
    (shr (numbered f m) n).getD (i - 1) 0 = if n < i then f (i - n) else 0 := by
  rw [shr_getD _ _ (by simp; omega)]
  split
  · rw [numbered_getD f (by omega), if_pos (by omega), show i - 1 - n + 1 = i - n by omega]
  · rw [if_neg (by omega)]

/-- R280: byte i of rotl. -/
theorem rotl_numbered (n : Nat) {i : Nat} (h1 : 1 ≤ i) (hm : i ≤ m) :
    (rotl (numbered f m) n).getD (i - 1) 0 = f ((i - 1 + n) % m + 1) := by
  rw [rotl_getD _ _ (by simp; omega), numbered_length, numbered_getD f (Nat.mod_lt _ (by omega))]

/-- R280: the byte of rotr that byte i moves to. -/
theorem rotr_numbered (n : Nat) {i : Nat} (h1 : 1 ≤ i) (hm : i ≤ m) :
    (rotr (numbered f m) n).getD ((i - 1 + n) % m) 0 = f i := by
  have h := rotr_getD (numbered f m) n (j := i - 1) (by simp; omega)
  rwa [numbered_length, numbered_getD f (by omega), Nat.sub_add_cancel h1] at h

/-- R282: the bytes moved out are those numbered up to `n`. -/
theorem shiftedOut_numbered (n : Nat) :
    shiftedOut (numbered f m) n = (List.range' 1 m).any fun i => decide (i ≤ n ∧ f i ≠ 0) := by
  rw [Bool.eq_iff_iff, shiftedOut, numbered, ← List.map_take, List.any_map]
  simp only [List.any_eq_true, List.mem_take_iff_getElem, List.getElem_range', List.length_range', Nat.lt_min,
    List.mem_range'_1, Function.comp_apply, bne_iff_ne, decide_eq_true_eq]
  constructor
  · rintro ⟨i, ⟨j, hj, hi⟩, hne⟩
    exact ⟨i, by omega, by omega, hne⟩
  · rintro ⟨i, hi, hn, hne⟩
    exact ⟨i, ⟨i - 1, by omega, by omega⟩, hne⟩

end Numbered

/-! ## The shifted registers -/

section Registers

variable {sh : List Byte → Nat → List Byte} (hlen : ∀ bs n, (sh bs n).length = bs.length)

include hlen

/-- R280: byte i of rA after a shift of rA alone. -/
theorem wordByte_shiftA (n : Nat) (s : State) {i : Nat} (h1 : 1 ≤ i) (h5 : i ≤ 5) :
    wordByte (shiftA sh n s).rA i = (sh (numbered (wordByte s.rA) 5) n).getD (i - 1) 0 :=
  wordByte_withBytes_getD s.rA (hlen _ n) h1 h5

/-- R280: byte i of rA:rX after a shift of both. -/
theorem byteAX_shiftAX (n : Nat) (s : State) {i : Nat} (h1 : 1 ≤ i) (h10 : i ≤ 10) :
    byteAX (shiftAX sh n s) i = (sh (numbered (byteAX s) 10) n).getD (i - 1) 0 := by
  rw [← bytesAX_eq_numbered]
  have h : (sh (bytesAX s) n).length = 10 := hlen _ n
  rw [byteAX, shiftAX]
  split
  · rw [State.setRX_rA, State.setRA_rA, wordByte_withBytes_getD _ (by simp [h]) h1 ‹_›]
    simp [List.getD_eq_getElem?_getD, show i - 1 < 5 by omega]
  · rw [State.setRX_rX, wordByte_withBytes_getD _ (by simp [h]) (by omega) (by omega)]
    simp [List.getD_eq_getElem?_getD, show 5 + (i - 5 - 1) = i - 1 by omega]

end Registers

/-! ## The instructions with a count that is not negative -/

section Instructions

variable {a : Address} {s : State} (hcount : 0 ≤ effective a s)

include hcount

/-- R284: SLA moves the bytes of rA left and may set OV. -/
theorem exec_sla_of_nonneg : exec (.sla a) s =
    complete (shiftOv (wordBytes s.rA) (effective a s).toNat (shiftA shl (effective a s).toNat s)) :=
  (rfl : _ = execSla a s).trans (withCount_of_nonneg hcount)

/-- R285: SRA moves the bytes of rA right. -/
theorem exec_sra_of_nonneg : exec (.sra a) s = complete (shiftA shr (effective a s).toNat s) :=
  (rfl : _ = execSra a s).trans (withCount_of_nonneg hcount)

/-- R286: SLAX moves the ten bytes left and may set OV. -/
theorem exec_slax_of_nonneg : exec (.slax a) s =
    complete (shiftOv (bytesAX s) (effective a s).toNat (shiftAX shl (effective a s).toNat s)) :=
  (rfl : _ = execSlax a s).trans (withCount_of_nonneg hcount)

/-- R287: SRAX moves the ten bytes right. -/
theorem exec_srax_of_nonneg : exec (.srax a) s = complete (shiftAX shr (effective a s).toNat s) :=
  (rfl : _ = execSrax a s).trans (withCount_of_nonneg hcount)

/-- R288: SLC rotates the ten bytes left. -/
theorem exec_slc_of_nonneg : exec (.slc a) s = complete (shiftAX rotl (effective a s).toNat s) :=
  (rfl : _ = execSlc a s).trans (withCount_of_nonneg hcount)

/-- R289: SRC rotates the ten bytes right. -/
theorem exec_src_of_nonneg : exec (.src a) s = complete (shiftAX rotr (effective a s).toNat s) :=
  (rfl : _ = execSrc a s).trans (withCount_of_nonneg hcount)

end Instructions

/-! ## The statements -/

/-- Settles O24: bytes by `shl_numbered` and `shr_numbered`, OV by `shiftedOut_numbered`. -/
theorem shiftsOfAComplete : Obligations.ShiftsOfAComplete := by
  intro a s hcount n
  constructor
  · refine ⟨_, exec_sla_of_nonneg hcount, rfl, fun i h1 h5 => ?_, ?_⟩
    · exact (wordByte_shiftA shl_length n s h1 h5).trans (shl_numbered _ n h1)
    · rw [wordBytes_eq_numbered, shiftOv, shiftedOut_numbered]
      rfl
  · refine ⟨_, exec_sra_of_nonneg hcount, rfl, fun i h1 h5 => ?_, rfl⟩
    exact (wordByte_shiftA shr_length n s h1 h5).trans (shr_numbered _ n h1 h5)

/-- Settles O25: as O24, over the ten bytes of rA:rX. -/
theorem shiftsOfAXComplete : Obligations.ShiftsOfAXComplete := by
  intro a s hcount n
  constructor
  · refine ⟨_, exec_slax_of_nonneg hcount, rfl, rfl, fun i h1 h10 => ?_, ?_⟩
    · exact (byteAX_shiftAX shl_length n s h1 h10).trans (shl_numbered _ n h1)
    · rw [bytesAX_eq_numbered, shiftOv, shiftedOut_numbered]
      rfl
  · refine ⟨_, exec_srax_of_nonneg hcount, rfl, rfl, fun i h1 h10 => ?_, rfl⟩
    exact (byteAX_shiftAX shr_length n s h1 h10).trans (shr_numbered _ n h1 h10)

/-- Settles O26: bytes by `rotl_numbered` and `rotr_numbered`, the latter reading the new bytes. -/
theorem rotationsComplete : Obligations.RotationsComplete := by
  intro a s hcount n
  constructor
  · refine ⟨_, exec_slc_of_nonneg hcount, rfl, rfl, fun i h1 h10 => ?_, rfl⟩
    exact (byteAX_shiftAX rotl_length n s h1 h10).trans (rotl_numbered _ n h1 h10)
  · refine ⟨_, exec_src_of_nonneg hcount, rfl, rfl, fun i h1 h10 => ?_, rfl⟩
    have hnew : (i - 1 + n) % 10 + 1 ≤ 10 := Nat.mod_lt _ (by decide)
    exact ((byteAX_shiftAX rotr_length n s (Nat.le_add_left 1 _) hnew).trans (rotr_numbered _ n h1 h10)).symm

end Sys2Proof.ShiftProofs

/-! # Proofs of the statements about the compares

The eight compares are one operation, `compareField`, on the register of their row (`exec_of_mem_compareTable`); where M
is in memory it completes with CI from the two values of the field (`compareField_of_inside`).  A field of magnitude 0
has the value 0 whatever its sign (`fieldVal_of_fieldMag_zero`), which is R303. -/

namespace Sys2Proof.CompareProofs

open Sys2Proof.Machine Sys2Proof.Claims Sys2Proof.LoadProofs

/-! ## Fields of magnitude 0 -/

/-- R303: a field of magnitude 0 has the value 0, be its sign minus or plus. -/
theorem fieldVal_of_fieldMag_zero {w : Word} {f : Field} (h : fieldMag w f = 0) : fieldVal w f = 0 := by
  rw [← Int.natAbs_eq_zero, fieldVal_natAbs, h]

/-- R100: the field (0:0) has no bytes. -/
theorem fieldMag_signOnly (w : Word) {f : Field} (hl : f.l.toNat = 0) (hr : f.r.toNat = 0) : fieldMag w f = 0 := by
  have hcount : byteCount f = 0 := by rw [byteCount, hl, hr]; rfl
  rw [fieldMag, hcount, pow_zero, Nat.mod_one]

/-- Every field of a word of magnitude 0 has magnitude 0. -/
theorem fieldMag_of_mag_zero {w : Word} (h : w.mag = 0) (f : Field) : fieldMag w f = 0 := by
  have hmag : w.mag.toNat = 0 := congrArg BitVec.toNat h
  rw [fieldMag, hmag, Nat.zero_div, Nat.zero_mod]

/-! ## The compares with M in memory -/

/-- R301: each row of the table runs `compareField` on its register. -/
theorem exec_of_mem_compareTable {s : State} {x : (Address → Field → Instr) × Word} (hx : x ∈ compareTable s)
    (a : Address) (f : Field) : exec (x.1 a f) s = compareField x.2 a f s := by
  simp only [compareTable, StoreProofs.indexWord_eq_word, List.mem_cons, List.not_mem_nil, or_false] at hx
  rcases hx with rfl | rfl | rfl | rfl | rfl | rfl | rfl | rfl
  all_goals rfl

/-- R300: a compare whose M is in memory completes with CI from the values of the field in the two words. -/
theorem compareField_of_inside {a : Address} {f : Field} {s : State} (hf : f.valid = true)
    (hin : Inside s (effective a s)) (r : Word) :
    compareField r a f s =
      complete (s.setCi (compareVals (fieldVal r f) (fieldVal (s.word (effective a s)) f))) := by
  rw [compareField, withOperand_of_inside ((State.inMemory_iff s _).mpr hin), compareWords,
    extractField_eq_fieldWord r hf, extractField_eq_fieldWord _ hf, fieldWord_val r hf, fieldWord_val _ hf]

/-- R300: equal values compare equal. -/
theorem compareVals_self (p : Int) : compareVals p p = .equal := by
  rw [compareVals, if_neg (Int.lt_irrefl p), if_pos rfl]

/-- R300, R303: where the field has magnitude 0 in both words, each compare leaves CI = EQUAL. -/
theorem exec_compare_of_fieldMag_zero {a : Address} {f : Field} {s : State} (hf : f.valid = true)
    (hin : Inside s (effective a s)) {x : (Address → Field → Instr) × Word} (hx : x ∈ compareTable s)
    (hreg : fieldMag x.2 f = 0) (hmem : fieldMag (s.word (effective a s)) f = 0) :
    exec (x.1 a f) s = .next { s with pc := s.pc + 1, ci := .equal } := by
  rw [exec_of_mem_compareTable hx, compareField_of_inside hf hin, fieldVal_of_fieldMag_zero hreg,
    fieldVal_of_fieldMag_zero hmem, compareVals_self]
  rfl

/-! ## The statements -/

/-- Settles O28: the next state is that of `compareField`; the field (0:0) has magnitude 0 in both words. -/
theorem comparesSetCI : Obligations.ComparesSetCI := by
  intro a f s hf hin w x hx
  exact ⟨(exec_of_mem_compareTable hx a f).trans (compareField_of_inside hf hin x.2), fun hl hr =>
    exec_compare_of_fieldMag_zero hf hin hx (fieldMag_signOnly x.2 hl hr) (fieldMag_signOnly w hl hr)⟩

/-- Settles O29: every field of two words of magnitude 0 has magnitude 0. -/
theorem negativeZeroComparesEqual : Obligations.NegativeZeroComparesEqual := by
  intro a f s hf hin hmem x hx hreg
  exact exec_compare_of_fieldMag_zero hf hin hx (fieldMag_of_mag_zero hreg f) (fieldMag_of_mag_zero hmem f)

end Sys2Proof.CompareProofs

/-! # Proofs of the statements about the jumps

A jump is one operation, `jump`, on its condition and the state with its other writes; `jumpStep_of_exec_eq_jump` says
once that this is the jump step of R320.  For each row of the condition table there remain rJ, which the J policy gives
(`writeJ_eq_recordedJ`), and OV. -/

namespace Sys2Proof.JumpProofs

open Sys2Proof.Machine Sys2Proof.Claims

/-! ## The jump step -/

/-- R55: the address after pc, cut to twelve bits. -/
theorem link_eq_returnAddress (s : State) : s.link = returnAddress s := by
  rw [State.link, returnAddress]
  bv_omega

/-- R321: the J write leaves in rJ what the policy says, and changes nothing else. -/
theorem writeJ_eq_recordedJ (s : State) (taken : Bool) : s.writeJ taken = { s with rJ := recordedJ s taken } := by
  rw [State.writeJ_eq, link_eq_returnAddress]
  rfl

/-- R320: an instruction that runs `jump` on its target takes the jump step. -/
theorem jumpStep_of_exec_eq_jump {i : Instr} {a : Address} {taken : Bool} {j : BitVec 12} {after s : State}
    (hexec : exec i s = jump (effective a s) taken { after with rJ := j } s) (hpc : after.pc = s.pc) :
    JumpStep i a taken j after s := by
  refine ⟨fun htaken hin => ?_, fun htaken => ?_, fun htaken hout => ?_⟩
  · rw [hexec, jump, if_pos htaken, checked, if_pos ((State.inMemory_iff s _).mpr hin)]
    rfl
  · rw [hexec, jump, htaken, ← hpc]
    rfl
  · rw [hexec, jump, if_pos htaken, MemoryProofs.checked_of_outside hout]

/-! ## The jumps of opcode 39 -/

/-- A jump that records writes rJ by the policy and nothing else beside pc. -/
theorem linkJump_eq_jump (a : Address) (taken : Bool) (s : State) :
    linkJump a taken s = jump (effective a s) taken { s with rJ := recordedJ s taken } s := by
  rw [linkJump, writeJ_eq_recordedJ]

/-- R331–R333: a jump on CI being other than `c`, with its condition as the table has it. -/
theorem linkJump_ne_eq_jump (a : Address) (c : Comparison) (s : State) :
    linkJump a (decide (s.ci ≠ c)) s = jump (effective a s) (s.ci != c) { s with rJ := recordedJ s (s.ci != c) } s := by
  rw [decide_not]
  exact linkJump_eq_jump a (s.ci != c) s

/-- R326, R327: a jump on OV also clears it. -/
theorem overflowJump_eq_jump (a : Address) (taken : Bool) (s : State) :
    overflowJump a taken s = jump (effective a s) taken { s with ov := false, rJ := recordedJ s taken } s := by
  rw [overflowJump, writeJ_eq_recordedJ]
  rfl

/-- R322: each row of the table runs `jump` on its condition, with its rJ and its OV. -/
theorem exec_of_mem_jumpTable {s : State} {x : JumpRow} (hx : x ∈ jumpTable s) (a : Address) :
    exec (x.instr a) s = jump (effective a s) x.taken
      { s with ov := x.ov, rJ := if x.writesJ then recordedJ s x.taken else s.rJ } s := by
  simp only [jumpTable, List.mem_cons, List.not_mem_nil, or_false] at hx
  rcases hx with rfl | rfl | rfl | rfl | rfl | rfl | rfl | rfl | rfl | rfl
  exacts [linkJump_eq_jump a true s, rfl, overflowJump_eq_jump a s.ov s, overflowJump_eq_jump a (!s.ov) s,
    linkJump_eq_jump a _ s, linkJump_eq_jump a _ s, linkJump_eq_jump a _ s,
    linkJump_ne_eq_jump a .less s, linkJump_ne_eq_jump a .equal s, linkJump_ne_eq_jump a .greater s]

/-! ## The statement -/

/-- Settles O30: the rows of the table by `exec_of_mem_jumpTable`, the three cases of each by
`jumpStep_of_exec_eq_jump`. -/
theorem jumpsOfOpcode39 : Obligations.JumpsOfOpcode39 :=
  fun a _ _ hx => jumpStep_of_exec_eq_jump (exec_of_mem_jumpTable hx a) rfl

end Sys2Proof.JumpProofs

/-! # Proof of the statement about the register-test jumps

The six jumps of one register run `testJump` on its value, one for each of the six tests in the order of the table's
columns (`registerTests`); so each entry of its rows is a jump that records, on the condition beside it
(`exec_of_mem_testRows`).  The test is on the value, and so −0 counts as zero (R350). -/

namespace Sys2Proof.RegisterJumpProofs

open Sys2Proof.Machine Sys2Proof.Claims

/-- The six tests, in the order N, Z, P, NN, NZ, NP of R350. -/
def registerTests : List RegTest := [.n, .z, .p, .nn, .nz, .np]

/-- R350: the conditions of the rows are the six tests of the value. -/
theorem testRows_eq_zip_testHolds (v : Int) (is : List (Address → Instr)) :
    testRows v is = is.zip (registerTests.map (testHolds v)) := rfl

/-- R350, R351: where the instructions run the six tests of `v`, each row of theirs is a jump on its condition that
records in rJ. -/
theorem exec_of_mem_testRows {v : Int} {is : List (Address → Instr)} {a : Address} {s : State}
    (hexec : is.map (fun i => exec (i a) s) = registerTests.map (fun t => testJump v t a s))
    {x : (Address → Instr) × Bool} (hx : x ∈ testRows v is) : exec (x.1 a) s = linkJump a x.2 s := by
  have hrows : List.Forall₂ (fun i taken => exec (i a) s = linkJump a taken s) is (registerTests.map (testHolds v)) := by
    rw [← List.forall₂_eq_eq_eq, List.forall₂_map_left_iff, List.forall₂_map_right_iff] at hexec
    exact List.forall₂_map_right_iff.mpr hexec
  rw [testRows_eq_zip_testHolds] at hx
  exact (List.forall₂_iff_zip.mp hrows).2 hx

/-- R352–R399: each of the 48 instructions is a jump on its condition that records in rJ, register by register. -/
theorem exec_of_mem_testTable {s : State} {x : (Address → Instr) × Bool} (hx : x ∈ testTable s) (a : Address) :
    exec (x.1 a) s = linkJump a x.2 s := by
  simp only [testTable, List.mem_append, or_assoc] at hx
  rcases hx with hA | h1 | h2 | h3 | h4 | h5 | h6 | hX
  · exact exec_of_mem_testRows rfl hA
  · exact exec_of_mem_testRows rfl h1
  · exact exec_of_mem_testRows rfl h2
  · exact exec_of_mem_testRows rfl h3
  · exact exec_of_mem_testRows rfl h4
  · exact exec_of_mem_testRows rfl h5
  · exact exec_of_mem_testRows rfl h6
  · exact exec_of_mem_testRows rfl hX

/-- Settles O31: the entries of the table by `exec_of_mem_testTable`, the three cases of each by
`jumpStep_of_exec_eq_jump`. -/
theorem registerTestJumps : Obligations.RegisterTestJumps := fun a s x hx =>
  JumpProofs.jumpStep_of_exec_eq_jump
    ((exec_of_mem_testTable hx a).trans (JumpProofs.linkJump_eq_jump a x.2 s)) rfl

end Sys2Proof.RegisterJumpProofs

/-! # Proofs of the statements about the address transfers

The operand is val(M) itself, which fits five bytes (`effective_natAbs_lt`).  So INC and DEC of rA and rX are additions
by the sum law, and ENT and ENN of them complete with a word of M's magnitude.  On an index register each of the four
ends in one write of it (`exec_incIndex` and its three companions), and `indexWrite_of_exec` says what that write does. -/

namespace Sys2Proof.AddressTransferProofs

open Sys2Proof.Machine Sys2Proof.Claims Sys2Proof.EncodingProofs Sys2Proof.LoadProofs Sys2Proof.ArithmeticProofs

variable {v : Int} (k : IndexReg) (a : Address) (s : State)

/-! ## The value and the signs of M -/

/-- R142: the value of M, at most 8190 in magnitude, fits five bytes. -/
theorem effective_natAbs_lt : (effective a s).natAbs < 64 ^ 5 := by
  obtain ⟨-, -, -, hlow, hhigh⟩ := effectiveAddressIsTheIndexedSum a s
  omega

/-- R142, R143: the sign of M, in the model and in the statements. -/
theorem effectiveSign_eq_signOfM : effectiveSign a s = signOfM a s := by
  obtain ⟨-, -, hsign, -⟩ := effectiveAddressIsTheIndexedSum a s
  exact hsign

/-- R11: the opposite sign is minus for plus and plus for minus. -/
theorem opposite_eq_ite (g : Sign) : g.opposite = if g = .plus then .minus else .plus := by
  cases g <;> rfl

/-- R423: the sign ENN enters, under each policy. -/
theorem ennSign_eq_signOfENN : ennSign a s = signOfENN a s := by
  rw [ennSign, signOfENN, effectiveSign_eq_signOfM]
  cases s.params.enn with
  | forceNegative => rfl
  | negate => exact opposite_eq_ite _

/-! ## rA and rX -/

/-- R250, R420: an addition to rX completes with the sum law of the statements. -/
theorem complete_addToX (hv : v.natAbs < 64 ^ 5) :
    complete (addToX v s) =
      .next { s with rX := sumWord s.rX (s.rX.val + v), ov := sumOv s (s.rX.val + v), pc := s.pc + 1 } := by
  rw [addToX, addLaw_eq s.rX hv]
  rfl

/-! ## The index registers -/

/-- R421: INCi writes the sum to rIi. -/
theorem exec_incIndex : exec (incIndex k a) s =
    writeIndex k (sgn ((s.index k).val + effective a s) (s.index k).sign) ((s.index k).val + effective a s) s s := by
  cases k <;> rfl

/-- R421: DECi writes the difference to rIi. -/
theorem exec_decIndex : exec (decIndex k a) s =
    writeIndex k (sgn ((s.index k).val - effective a s) (s.index k).sign) ((s.index k).val - effective a s) s s := by
  rw [Int.sub_eq_add_neg]
  cases k <;> rfl

/-- R422: ENTi writes the value of M to rIi, with M's sign. -/
theorem exec_entIndex : exec (entIndex k a) s = writeIndex k (signOfM a s) (effective a s) s s := by
  rw [← effectiveSign_eq_signOfM]
  cases k <;> rfl

/-- R423: ENNi writes it with the sign of the policy. -/
theorem exec_ennIndex : exec (ennIndex k a) s = writeIndex k (signOfENN a s) (effective a s) s s := by
  rw [← ennSign_eq_signOfENN]
  cases k <;> rfl

/-! ## The statements -/

/-- Settles O32: all four add a value of five bytes to their register, DECA and DECX the opposite of val(M). -/
theorem incrementsOfAAndXComplete : Obligations.IncrementsOfAAndXComplete := by
  intro a s m
  have hm : m.natAbs < 64 ^ 5 := effective_natAbs_lt a s
  have hneg : (-m).natAbs < 64 ^ 5 := (Int.natAbs_neg m).symm ▸ hm
  exact ⟨complete_addToA hm, complete_addToA hneg, complete_addToX s hm, complete_addToX s hneg⟩

/-- Settles O33: INCi and DECi end in a write of rIi, which leaves OV alone. -/
theorem incrementsOfIndexRegisters : Obligations.IncrementsOfIndexRegisters := fun k a s =>
  ⟨indexWrite_of_exec (exec_incIndex k a s), indexWrite_of_exec (exec_decIndex k a s)⟩

/-- Settles O35: ENTi and ENNi end in a write of rIi. -/
theorem entersOfIndexRegisters : Obligations.EntersOfIndexRegisters := fun k a s =>
  ⟨indexWrite_of_exec (exec_entIndex k a s), indexWrite_of_exec (exec_ennIndex k a s)⟩

/-- Settles O34: the four complete with M's magnitude, and only the sign is to be put as the statement has it. -/
theorem entersOfAAndXComplete : Obligations.EntersOfAAndXComplete := by
  intro a s n
  rw [← effectiveSign_eq_signOfM, ← ennSign_eq_signOfENN]
  exact ⟨rfl, rfl, rfl, rfl⟩

end Sys2Proof.AddressTransferProofs

/-! # Proofs of the statements about faults

An address outside memory and a negative shift count end the instruction in a fault before anything is written
(`checkedAll_of_outside`, `withCount_of_neg`).  For a whole step, `stepResult_ending` reads the same off the ways a step
can end: unless the run state is RUNNING or HALTED after it, the run state is all that was written. -/

namespace Sys2Proof.FaultProofs

open Sys2Proof.Machine Sys2Proof.Claims Sys2Proof.StateProofs

variable {i : Instr} {s t : State}

/-! ## Checks that fail -/

/-- R511: taking a fault, in the statements and in the model. -/
theorem raise_eq_faultedWith (e : Event) (s : State) : raise e s = .next (faultedWith s e) := rfl

/-- R504: a shift by a negative count faults. -/
theorem withCount_of_neg {a : Address} {k : Nat → Answer} (h : effective a s < 0) :
    withCount a s k = .next (faultedWith s (.operandFault (effective a s))) := by
  rw [withCount, if_pos h, raise_eq_faultedWith]

theorem not_inMemory_iff {x : Int} : (!s.inMemory x) = true ↔ ¬ Inside s x := by
  rw [Bool.not_eq_true', ← Bool.not_eq_true, State.inMemory_iff]

/-- R503: checks of some addresses, of which one is outside memory, fault on such an address whatever was to follow. -/
theorem checkedAll_of_outside {as : List Int} (h : ∃ x ∈ as, ¬ Inside s x) :
    ∃ x ∈ as, ¬ Inside s x ∧ ∀ k, checkedAll as s k = .next (faultedWith s (.addressFault x)) := by
  obtain ⟨y, hy, hout⟩ := h
  cases hfind : s.firstOutside as with
  | none => exact absurd (not_inMemory_iff.mpr hout) (List.find?_eq_none.mp hfind y hy)
  | some x =>
    have hx : (!s.inMemory x) = true := List.find?_some (p := fun a => !s.inMemory a) hfind
    refine ⟨x, List.mem_of_find?_eq_some hfind, not_inMemory_iff.mp hx, fun k => ?_⟩
    rw [checkedAll, hfind]
    rfl

/-- R93: the first address is checked first. -/
theorem checkedAll_of_head_outside {x : Int} (h : ¬ Inside s x) (as : List Int) (k : Answer) :
    checkedAll (x :: as) s k = .next (faultedWith s (.addressFault x)) := by
  have hfirst : s.firstOutside (x :: as) = some x := List.find?_cons_of_pos (not_inMemory_iff.mpr h)
  rw [checkedAll, hfirst]
  rfl

/-! ## How a step ends the run -/

/-- R511: an instruction goes on or halts, or writes nothing but a fault into the run state. -/
theorem execResult_ending (h : ExecResult i s t) (hr : s.runState = .running) :
    (t.runState = .running ∨ t.runState = .halted) ∨ ∃ e, t = s.setRun (.faulted e s.pc) := by
  cases h with
  | faults he => exact .inr ⟨_, rfl⟩
  | completes hu => exact .inl (.inl (hu.runState.trans hr))
  | records hu he => exact .inl (.inl (hu.runState.trans hr))
  | jumps hu hj hm => exact .inl (.inl (hu.runState.trans hr))
  | halts hi => exact .inl (.inr rfl)

/-- R509, R511: the same of a step, which may also refuse. -/
theorem stepResult_ending (h : StepResult s t) (hr : s.runState = .running) :
    (t.runState = .running ∨ t.runState = .halted) ∨ (∃ e, t = s.setRun (.faulted e s.pc)) ∨
      ∃ c f, t = s.setRun (.refused s.pc c f) := by
  cases h with
  | faults he => exact .inr (.inl ⟨_, rfl⟩)
  | skips hin he => exact .inl (.inl hr)
  | refuses hgk hc => exact .inr (.inr ⟨_, _, rfl⟩)
  | executes hin hd hx => exact (execResult_ending hx hr).imp_right .inl

/-! ## The statements -/

/-- Settles O27: each of the six first checks its count. -/
theorem negativeShiftCountFaults : Obligations.NegativeShiftCountFaults := by
  intro a s hneg sh hsh
  simp only [shifts, List.mem_cons, List.not_mem_nil, or_false] at hsh
  rcases hsh with rfl | rfl | rfl | rfl | rfl | rfl
  exacts [(withCount_of_neg hneg : execSla a s = _), (withCount_of_neg hneg : execSra a s = _),
    (withCount_of_neg hneg : execSlax a s = _), (withCount_of_neg hneg : execSrax a s = _),
    (withCount_of_neg hneg : execSlc a s = _), (withCount_of_neg hneg : execSrc a s = _)]

/-- Settles O52: of the ways a step can end, the run state singles out the one that wrote it. -/
theorem fatalFaultsChangeNothingElse : Obligations.FatalFaultsChangeNothingElse := by
  intro s t hstep
  have hend := stepResult_ending (step_result hstep) (running_of_step hstep)
  refine ⟨fun e p ht => ?_, fun p c f ht => ?_⟩
  · rcases hend with hgoes | ⟨e', rfl⟩ | ⟨c, f, rfl⟩
    · simp [ht] at hgoes
    · cases ht
      rfl
    · cases ht
  · rcases hend with hgoes | ⟨e', rfl⟩ | ⟨c', f', rfl⟩
    · simp [ht] at hgoes
    · cases ht
    · cases ht
      rfl

end Sys2Proof.FaultProofs

/-! # Proofs of the statements about NUM, CHAR, HLT and NOP

The ten character bytes that CHAR writes are the decimal digits of |rA|, byte i that of weight 10^(10-i)
(`digitBytes_getD`).  NUM reads the digits back (`digitsValue_numbered`), as a magnitude has at most ten. -/

namespace Sys2Proof.ConversionProofs

open Sys2Proof.Machine Sys2Proof.Claims Sys2Proof.ShiftProofs

/-- R470: the number NUM makes, in the model and in the statements. -/
theorem digitsValue_bytesAX (s : State) : digitsValue (bytesAX s) = tenDigits s := by
  rw [bytesAX_eq_numbered, tenDigits]
  simp only [digitsValue, numbered, List.range', List.map, List.foldl, Nat.reduceAdd]
  omega

/-- R471: the ten character bytes, byte i that of the digit of weight 10^(10-i). -/
theorem digitBytes_eq_numbered (n : Nat) : digitBytes n = numbered (fun i => digitByte n (10 - i)) 10 := rfl

theorem digitByte_toNat (n e : Nat) : (digitByte n e).toNat = 30 + n / 10 ^ e % 10 := by
  rw [digitByte, BitVec.toNat_ofNat]
  omega

/-- Byte i of rA:rX after a write of ten bytes to the two. -/
theorem byteAX_setBytes (s : State) {bs : List Byte} (h : bs.length = 10) {i : Nat} (h1 : 1 ≤ i) (h10 : i ≤ 10) :
    byteAX ((s.setRA (withBytes s.rA (bs.take 5))).setRX (withBytes s.rX (bs.drop 5))) i = bs.getD (i - 1) 0 := by
  rw [byteAX]
  split
  · rw [State.setRX_rA, State.setRA_rA, wordByte_withBytes_getD _ (by simp [h]) h1 ‹_›]
    simp [List.getD_eq_getElem?_getD, show i - 1 < 5 by omega]
  · rw [State.setRX_rX, wordByte_withBytes_getD _ (by simp [h]) (by omega) (by omega)]
    simp [List.getD_eq_getElem?_getD, show 5 + (i - 5 - 1) = i - 1 by omega]

/-- R471: byte i that CHAR writes. -/
theorem digitBytes_getD (n : Nat) {i : Nat} (h1 : 1 ≤ i) (h10 : i ≤ 10) :
    ((digitBytes n).getD (i - 1) 0).toNat = 30 + n / 10 ^ (10 - i) % 10 := by
  rw [digitBytes_eq_numbered, numbered_getD _ (by omega), Nat.sub_add_cancel h1, digitByte_toNat]

/-- R470: one more digit at the end. -/
theorem digitsValue_numbered_succ (f : Nat → Byte) (m : Nat) :
    digitsValue (numbered f (m + 1)) = 10 * digitsValue (numbered f m) + (f (m + 1)).toNat % 10 := by
  simp [digitsValue, numbered, List.range'_concat, Nat.add_comm 1]

/-- R470, R471: the first `m` of the ten character bytes of `n` make the number of its first `m` digits. -/
theorem digitsValue_numbered {n : Nat} {f : Nat → Byte} (hn : n < 10 ^ 10)
    (hf : ∀ i, 1 ≤ i → i ≤ 10 → (f i).toNat = 30 + n / 10 ^ (10 - i) % 10) {m : Nat} (hm : m ≤ 10) :
    digitsValue (numbered f m) = n / 10 ^ (10 - m) := by
  induction m with
  | zero => exact (Nat.div_eq_of_lt hn).symm
  | succ m ih =>
    have hpow : 10 ^ (10 - m) = 10 ^ (10 - (m + 1)) * 10 := by
      rw [← Nat.pow_succ]
      congr 1
      omega
    rw [digitsValue_numbered_succ, ih (by omega), hf (m + 1) (by omega) hm, hpow, ← Nat.div_div_eq_div_mul]
    omega

/-! ## The statements -/

/-- Settles O36: the ten digits are the fold of the model. -/
theorem numFoldsTheDigits : Obligations.NumFoldsTheDigits := by
  intro a s
  rw [← digitsValue_bytesAX]
  rfl

/-- Settles O37: the ten bytes written are the digits of |rA|. -/
theorem charWritesTheDigits : Obligations.CharWritesTheDigits := by
  intro a s
  refine ⟨_, rfl, fun i h1 h10 => ?_, rfl, rfl, rfl⟩
  rw [← digitBytes_getD _ h1 h10]
  exact congrArg BitVec.toNat (byteAX_setBytes s rfl h1 h10)

/-- Settles O38: NUM reads the ten digits that CHAR writes (O37), and |rA| is below 64^5. -/
theorem charThenNumRestoresA : Obligations.CharThenNumRestoresA := by
  intro a b s
  obtain ⟨t, ht, hbytes, hsign, -⟩ := charWritesTheDigits a s
  have hmag : s.rA.mag.toNat < 64 ^ 5 := s.rA.mag.isLt
  have hdigits : digitsValue (bytesAX t) = s.rA.mag.toNat :=
    (digitsValue_numbered (by omega) hbytes (Nat.le_refl 10)).trans (Nat.div_one _)
  refine ⟨t, _, ht, rfl, ?_⟩
  rw [State.setPc_rA, State.setRA_rA, hdigits, Nat.mod_eq_of_lt hmag, BitVec.ofNat_toNat, BitVec.setWidth_eq, hsign]

/-- Settles O39: both are one update of the state. -/
theorem haltAndNop : Obligations.HaltAndNop := fun _ _ _ => ⟨rfl, rfl⟩

end Sys2Proof.ConversionProofs

/-! # Proofs of the statements about MOVE

With both blocks in memory MOVE is a copy and a write of rI1 (`exec_move_of_inside`).  The copy goes upwards and reads
what it has written, so a target that starts d > 0 words above the source repeats the first d words
(`read_moveWords_target`). -/

namespace Sys2Proof.MoveProofs

open Sys2Proof.Machine Sys2Proof.Claims Sys2Proof.MemoryProofs Sys2Proof.FaultProofs

/-! ## The copy -/

/-- The remainder of the next number: one more, or 0 where it comes full circle. -/
theorem add_one_mod {d : Nat} (hd : 0 < d) (j : Nat) :
    (j + 1) % d = if j % d + 1 = d then 0 else j % d + 1 := by
  have hlt := Nat.mod_lt j hd
  rw [← Nat.mod_add_mod]
  split
  · rw [‹j % d + 1 = d›, Nat.mod_self]
  · exact Nat.mod_eq_of_lt (by omega)

/-- R474: word j of the target block after the copy. -/
theorem read_moveWords_target {m : Memory} {src dst n j : Nat} (hm : m.wf) (hj : j < n) :
    (moveWords src dst n m).read (dst + j) =
      if src < dst then m.read (src + j % (dst - src)) else m.read (src + j) := by
  induction n generalizing src dst m j with
  | zero => exact absurd hj (Nat.not_lt_zero j)
  | succ n ih =>
    have hm' : (m.write dst (m.read src)).wf := Memory.write_wf hm
    rw [moveWords]
    cases j with
    | zero =>
      rw [read_moveWords hm' (by omega), read_write hm]
      simp
    | succ j =>
      have hnext (x y : Nat) : x + (y + 1) = x + 1 + y := by omega
      rw [hnext dst j, ih hm' (by omega), Nat.add_sub_add_right, read_write hm, read_write hm]
      by_cases hup : src < dst
      · rw [if_pos (Nat.succ_lt_succ hup), if_pos hup, add_one_mod (by omega)]
        by_cases hfull : j % (dst - src) + 1 = dst - src
        · rw [if_pos hfull, if_pos (by omega), Nat.add_zero]
        · rw [if_neg hfull, if_neg (by omega), hnext src (j % (dst - src))]
      · rw [if_neg (by omega), if_neg hup, if_neg (by omega), hnext src j]

/-! ## The instruction -/

section Instruction

variable {a : Address} {n : BitVec 6} {s : State}

/-- R474, R503: an address of either block outside memory is a fault, before any copy. -/
theorem exec_move_of_outside
    (h : ∃ j : Nat, j < n.toNat ∧ (¬ Inside s (effective a s + j) ∨ ¬ Inside s (s.rI1.val + j))) :
    ∃ x, ¬ Inside s x ∧ (∃ j : Nat, j < n.toNat ∧ (x = effective a s + j ∨ x = s.rI1.val + j)) ∧
      exec (.move a n) s = .next (faultedWith s (.addressFault x)) := by
  obtain ⟨j, hj, hout⟩ := h
  have hlisted : ∃ x ∈ moveAddresses (effective a s) s.rI1.val n.toNat, ¬ Inside s x :=
    hout.elim (fun h => ⟨_, mem_moveAddresses.mpr ⟨j, hj, .inl rfl⟩, h⟩)
      fun h => ⟨_, mem_moveAddresses.mpr ⟨j, hj, .inr rfl⟩, h⟩
  obtain ⟨x, hx, hxout, hfault⟩ := checkedAll_of_outside hlisted
  exact ⟨x, hxout, mem_moveAddresses.mp hx, hfault _⟩

/-- R474: with both blocks in memory, MOVE copies and writes rI1. -/
theorem exec_move_of_inside
    (hin : ∀ j : Nat, j < n.toNat → Inside s (effective a s + j) ∧ Inside s (s.rI1.val + j)) :
    exec (.move a n) s = writeIndex .r1 (sgn (s.rI1.val + n.toNat) s.rI1.sign) (s.rI1.val + n.toNat)
      (s.setMem (moveWords (effective a s).toNat s.rI1.val.toNat n.toNat s.mem)) s := by
  refine checkedAll_of_inside fun x hx => (State.inMemory_iff s x).mpr ?_
  obtain ⟨j, hj, rfl | rfl⟩ := mem_moveAddresses.mp hx
  · exact (hin j hj).1
  · exact (hin j hj).2

end Instruction

/-! ## The write of rI1 -/

section IndexWrite

variable {k : IndexReg} {sg : Sign} {v : Int} {after s : State}

theorem writeIndex_of_lt (h : v.natAbs < 4096) :
    writeIndex k sg v after s = complete (after.setIndex k ⟨sg, BitVec.ofNat 12 v.natAbs⟩) :=
  if_pos h

theorem writeIndex_of_record (h : 4096 ≤ v.natAbs) (hp : s.params.indexAnomaly = .record) :
    writeIndex k sg v after s =
      complete ((after.setIndex k ⟨sg, BitVec.ofNat 12 v.natAbs⟩).record (.indexAnomaly k v)) := by
  rw [writeIndex, if_neg (Nat.not_lt.mpr h), hp]

theorem writeIndex_of_stop (h : 4096 ≤ v.natAbs) (hp : s.params.indexAnomaly = .stop) :
    writeIndex k sg v after s = .next (faultedWith s (.indexAnomaly k v)) := by
  rw [writeIndex, if_neg (Nat.not_lt.mpr h), hp, raise_eq_faultedWith]

end IndexWrite

/-- R13: the sign of a value is its own, be it zero or not. -/
theorem sgn_apply (g : Sign) (n : Nat) : sgn (g.apply n) g = g := by
  cases g with
  | plus => simp [sgn, Sign.apply, (Int.natCast_nonneg n).not_gt]
  | minus => simp [sgn, Sign.apply]

/-- R13, R43: an index register written with its own value is as it was. -/
theorem indexWord_of_val (r : IndexWord) : (⟨sgn r.val r.sign, BitVec.ofNat 12 r.val.natAbs⟩ : IndexWord) = r := by
  have habs : r.val.natAbs = r.mag.toNat := LoadProofs.sign_apply_natAbs _ _
  rw [habs, BitVec.ofNat_toNat, BitVec.setWidth_eq, IndexWord.val, sgn_apply]

/-- R13: the sign of a positive value. -/
theorem sgn_of_pos {v : Int} (h : 0 < v) (g : Sign) : sgn v g = .plus := if_pos h

/-- R474: the empty block leaves memory and rI1 as they were. -/
theorem exec_move_zero (a : Address) (s : State) : exec (.move a 0) s = .next { s with pc := s.pc + 1 } := by
  have hval : s.rI1.val + ((0 : BitVec 6).toNat : Int) = s.rI1.val := Int.add_zero _
  have hlt : s.rI1.val.natAbs < 4096 := by
    rw [IndexWord.val, LoadProofs.sign_apply_natAbs]
    exact s.rI1.mag.isLt
  rw [exec_move_of_inside (by simp), hval, writeIndex_of_lt hlt, indexWord_of_val]
  rfl

/-! ## The statements -/

/-- Settles O40: the copy by `read_moveWords_target`, every other word by `read_moveWords`. -/
theorem moveCopiesTheBlock : Obligations.MoveCopiesTheBlock := by
  intro a n s hwf
  refine ⟨fun hn => hn ▸ exec_move_zero a s, fun hn hsrc hsrcEnd hdst hdstEnd hlt => ?_⟩
  have hpos : 0 < n.toNat := Nat.pos_of_ne_zero fun h => hn (BitVec.eq_of_toNat_eq h)
  have hin (j : Nat) (hj : j < n.toNat) : Inside s (effective a s + j) ∧ Inside s (s.rI1.val + j) := by omega
  have habs : (s.rI1.val + n.toNat).natAbs = s.rI1.val.toNat + n.toNat := by omega
  have hexec := exec_move_of_inside hin
  rw [writeIndex_of_lt (by omega), sgn_of_pos (by omega), habs] at hexec
  exact ⟨_, hexec, fun j => read_moveWords_target hwf, fun b => read_moveWords hwf, rfl⟩

/-- Settles O41: the addresses are checked first (`exec_move_of_outside`); the anomaly is that of the write of rI1. -/
theorem moveFaultsBeforeAnyCopy : Obligations.MoveFaultsBeforeAnyCopy := by
  intro a n s src dst
  refine ⟨exec_move_of_outside, fun hin hwide => ?_⟩
  have hexec := exec_move_of_inside hin
  have hwide' : 4096 ≤ (dst + n.toNat).natAbs := by omega
  refine ⟨fun hstop => hexec.trans (writeIndex_of_stop hwide' hstop), fun hrecord hwf => ?_⟩
  have habs : BitVec.ofNat 12 (dst + n.toNat).natAbs = BitVec.ofNat 12 ((dst + n.toNat).toNat % 4096) := by
    apply BitVec.eq_of_toNat_eq
    simp only [BitVec.toNat_ofNat]
    omega
  rw [writeIndex_of_record hwide' hrecord, sgn_of_pos (by omega), habs] at hexec
  refine ⟨_, hexec, fun j hj => ?_, fun b => read_moveWords hwf, rfl⟩
  have hup : src < dst ↔ src.toNat < dst.toNat := by
    have := hin j hj
    omega
  simp only [hup]
  exact read_moveWords_target hwf hj

end Sys2Proof.MoveProofs

/-! # Proofs of the statements about input and output

IN and OUT first check M and the addresses of its block, then all five instructions ask the oracle: what each does on a
block outside memory, on a failure and on an answer is one rule per shared operation.  The memory that IN leaves is
read word by word (`read_inputCells_eq`). -/

namespace Sys2Proof.DeviceProofs

open Sys2Proof.Machine Sys2Proof.Claims Sys2Proof.MemoryProofs Sys2Proof.FaultProofs

section Operations

variable {op : DeviceOp} {u : BitVec 6} {m : Int} {s : State} {k : Bool → List (Nat × Word) → Answer}

/-- R480: an answer goes on. -/
theorem withDevice_of_answer {busy : Bool} {cells : List (Nat × Word)}
    (h : s.deviceAnswer op u m = .answer busy cells) : withDevice op u m s k = k busy cells := by
  rw [withDevice, h]

/-- R506: a failure is a fault. -/
theorem withDevice_of_fail (h : s.deviceAnswer op u m = .fail) :
    withDevice op u m s k = .next (faultedWith s (.deviceFault u)) := by
  rw [withDevice, h, raise_eq_faultedWith]

/-- R483, R484: M and a block in memory pass their checks. -/
theorem checkedBlock_of_inside {k : Answer} (hm : Inside s m)
    (hblock : ∀ x ∈ blockAddresses s.params.ioBlock u m, Inside s x) : checkedBlock u m s k = k :=
  checkedAll_of_inside fun x hx => (State.inMemory_iff s x).mpr (List.forall_mem_cons.mpr ⟨hm, hblock⟩ x hx)

/-- R481, R485: on an answer, a device jump takes the jump step on that answer. -/
theorem jumpStep_of_answer {i : Instr} {a : Address} {jumpsWhenBusy busy : Bool} {cells : List (Nat × Word)}
    (hexec : exec i s = deviceJump op jumpsWhenBusy a u s)
    (h : s.deviceAnswer op u (effective a s) = .answer busy cells) :
    JumpStep i a (busy == jumpsWhenBusy) (recordedJ s (busy == jumpsWhenBusy)) s.answered s := by
  refine JumpProofs.jumpStep_of_exec_eq_jump ?_ rfl
  rw [hexec, deviceJump, withDevice_of_answer h, JumpProofs.writeJ_eq_recordedJ]
  rfl

end Operations

/-! ## The memory that IN leaves -/

/-- The words that follow a listed pair count before it. -/
theorem imageWord_cons (y : Nat) (w : Word) (cells : List (Nat × Word)) (x : Nat) :
    imageWord ((y, w) :: cells) x = (imageWord cells x).or (if x = y then some w else none) := by
  rw [imageWord, imageWord, List.reverse_cons, List.find?_append, Option.map_or, List.find?_singleton]
  by_cases hx : x = y
  · simp [hx]
  · simp [hx, Ne.symm hx]

/-- R483: IN leaves the listed words at the addresses of the block in memory, and the others as they were. -/
theorem read_inputCells_eq {p : Params} {u : BitVec 6} {a : Int} (x : Nat) {cells : List (Nat × Word)} {m : Memory}
    (hm : m.wf) : (inputCells p u a cells m).read x =
      if x < p.memSize ∧ inBlock p.ioBlock u a x = true then (imageWord cells x).getD (m.read x) else m.read x := by
  induction cells generalizing m with
  | nil => exact (ite_self _).symm
  | cons c cells ih =>
    obtain ⟨y, w⟩ := c
    rw [inputCells, imageWord_cons]
    by_cases hxy : x = y
    · subst hxy
      by_cases hin : x < p.memSize ∧ inBlock p.ioBlock u a x = true
      · have hwritten : (m.write x w).read x = w := (read_write hm x x w).trans (if_pos rfl)
        rw [if_pos (by simpa using hin), ih (Memory.write_wf hm), if_pos hin, if_pos hin, hwritten, if_pos rfl]
        cases imageWord cells x <;> rfl
      · rw [if_neg (by simpa using hin), ih hm, if_neg hin, if_neg hin]
    · rw [if_neg hxy, Option.or_none]
      split
      · rw [ih (Memory.write_wf hm), read_write_ne hm hxy]
      · exact ih hm

/-! ## The statements -/

/-- Settles O42: on an answer both are the jump step of R320. -/
theorem deviceJumpsFollowTheAnswer : Obligations.DeviceJumpsFollowTheAnswer := by
  intro a u s busy cells after
  refine ⟨fun h => ?_, fun h => ?_⟩
  · have hstep := jumpStep_of_answer (i := .jbus a u) (jumpsWhenBusy := true) rfl h
    rwa [beq_true] at hstep
  · have hstep := jumpStep_of_answer (i := .jred a u) (jumpsWhenBusy := false) rfl h
    rwa [beq_false] at hstep

/-- Settles O43: IOC asks the oracle at once, OUT once its addresses are in memory. -/
theorem iocAndOutComplete : Obligations.IocAndOutComplete := by
  intro a u s busy cells after
  exact ⟨fun h => (withDevice_of_answer h : execIoc a u s = _),
    fun h hm hblock => (checkedBlock_of_inside hm hblock).trans (withDevice_of_answer h)⟩

/-- Settles O44: the memory that IN leaves, word by word. -/
theorem inWritesOnlyItsBlock : Obligations.InWritesOnlyItsBlock := by
  intro a u s busy cells hwf h hm hblock
  exact ⟨_, (checkedBlock_of_inside hm hblock).trans (withDevice_of_answer h), fun x => read_inputCells_eq x hwf, rfl⟩

/-- Settles O45: IN and OUT ask the oracle once their addresses are in memory, the others at once. -/
theorem deviceFailureFaults : Obligations.DeviceFailureFaults := by
  intro a u s m bad buffer
  exact ⟨fun h => (withDevice_of_fail h : execJbus a u s = _), fun h => (withDevice_of_fail h : execIoc a u s = _),
    fun h ⟨hm, hblock⟩ => (checkedBlock_of_inside hm hblock).trans (withDevice_of_fail h),
    fun h ⟨hm, hblock⟩ => (checkedBlock_of_inside hm hblock).trans (withDevice_of_fail h),
    fun h => (withDevice_of_fail h : execJred a u s = _)⟩

/-- Settles O46: M is checked first, then the block's addresses, and only then the oracle is asked. -/
theorem bufferOutsideMemoryFaults : Obligations.BufferOutsideMemoryFaults := by
  intro a u s m
  refine ⟨fun hm => ⟨checkedAll_of_head_outside hm _ _, checkedAll_of_head_outside hm _ _⟩, fun ⟨y, hy, hout⟩ => ?_⟩
  obtain ⟨x, hx, hxout, hfault⟩ := checkedAll_of_outside ⟨y, List.mem_cons_of_mem m hy, hout⟩
  exact ⟨x, List.mem_cons.mp hx, hxout, hfault _, hfault _⟩

end Sys2Proof.DeviceProofs

/-! # Proofs of the statements about the launch

A launch loads what its arguments say once its preconditions hold (`launchLegal_iff`, `read_imageMemory`); reset is such
a launch, and so has the invariant. -/

namespace Sys2Proof.LaunchProofs

open Sys2Proof.Machine Sys2Proof.Claims Sys2Proof.MemoryProofs

/-- R552: the preconditions, in the model and in the statements. -/
theorem launchLegal_iff {p : Params} {image : List Nat} {start : Nat} : launchLegal p image start = true ↔
    4000 ≤ p.memSize ∧ p.memSize ≤ 4096 ∧ image.length ≤ p.memSize ∧ (∀ n ∈ image, n < 2 ^ 31) ∧ start < p.memSize := by
  simp only [launchLegal, Bool.and_eq_true, StateProofs.legal_iff, decide_eq_true_eq, List.all_eq_true, and_assoc]

/-- R551: word `i` of an image at address `a` is its number `i`, and +0 past its end. -/
theorem read_imageMemory (a i : Nat) (image : List Nat) :
    (imageMemory a image).read (a + i) = unpackWord (BitVec.ofNat 31 (image.getD i 0)) := by
  induction image generalizing a i with
  | nil =>
    rw [List.getD_nil]
    rfl
  | cons n rest ih =>
    have habove : ∀ c ∈ imageMemory (a + 1) rest, a < c.1 := fun c hc => (imageMemory_range hc).1
    rw [imageMemory, read_ite_cons habove]
    cases i with
    | zero => exact if_pos rfl
    | succ i =>
      have hnext : a + (i + 1) = a + 1 + i := by omega
      rw [if_neg (by omega), hnext, ih, List.getD_cons_succ]

/-! ## The statements -/

/-- Settles O57: the preconditions by `launchLegal_iff`, memory by `read_imageMemory`, the registers as they stand. -/
theorem launchLoadsTheState : Obligations.LaunchLoadsTheState := by
  intro p init image start oracle ok
  refine ⟨fun hbad => if_neg (mt launchLegal_iff.mp hbad), fun hok => ?_⟩
  have hlegal := launchLegal_iff.mpr hok
  obtain ⟨hlow, hhigh, hlen, -, hstart⟩ := hok
  have hpc : (BitVec.ofNat 13 start).toNat = start := Nat.mod_eq_of_lt (by omega)
  have hbelow : Memory.below (imageMemory 0 image) p.memSize := fun c hc => by
    have := imageMemory_range hc
    omega
  have hread (x : Nat) : (imageMemory 0 image).read x = unpackWord (BitVec.ofNat 31 (image.getD x 0)) := by
    rw [← read_imageMemory 0 x image, Nat.zero_add]
  refine ⟨_, if_pos hlegal, ?_, hread, rfl, rfl, rfl, rfl, rfl, rfl, rfl, rfl, rfl, rfl, rfl, hpc, rfl, rfl, rfl⟩
  exact ⟨StateProofs.legal_iff.mpr ⟨hlow, hhigh⟩, imageMemory_wf 0 image, hbelow, hpc.trans_le hstart.le, by simp, rfl⟩

/-- Settles O58: the launch is reset as it stands. -/
theorem resetIsTheDefaultLaunch : Obligations.ResetIsTheDefaultLaunch :=
  ⟨rfl, rfl, rfl, fun k => by cases k <;> rfl, rfl, rfl, rfl, rfl, rfl, rfl, fun _ => rfl⟩

/-- Settles O56: reset is a launch (O58), and every launch has the invariant (O57). -/
theorem resetHasTheInvariant : Obligations.ResetHasTheInvariant := by
  obtain ⟨hlaunch, -⟩ := resetIsTheDefaultLaunch
  obtain ⟨-, hlegal⟩ := launchLoadsTheState Params.default InitRegs.default [] 0 []
  obtain ⟨s, hs, hinv, -⟩ := hlegal (by decide)
  obtain rfl := Option.some.inj (hlaunch.symm.trans hs)
  exact hinv

end Sys2Proof.LaunchProofs
